-- ==== Sys2Proof/Word.lean ====
section
/-! DEFINITION. The word types of the CORE: a 32-bit word (R9), a byte (R11), a 16-bit command word (R70). -/

namespace Sys2Proof

/-- A word: a 32-bit unsigned value, added modulo 2^32 (R9). -/
abbrev Word := BitVec 32

/-- A byte: an 8-bit unsigned value (R11). -/
abbrev Byte := BitVec 8

/-- A command as the host presents it on `cmd_data` (R70). -/
abbrev CmdWord := BitVec 16

end Sys2Proof
end

