-- ==== Sys2Proof/Config.lean ====
section
/-! DEFINITION. What the spec leaves to an implementation: the four cycle counts (R240, OPEN, an argument of the
clocked machine) and the free values (R29, R238). -/

namespace Sys2Proof

/-- The timing parameters of R240, in cycles. The clocked machine takes them as an argument; the spec's bound
(each at least 1) is `Timing.wf`. -/
structure Timing where
  /-- NOP, INIT and an ABSORB that does not fill a block. -/
  tAccept : Nat
  /-- An ABSORB that fills a block. -/
  tBlock : Nat
  /-- A FINAL with one tail block. -/
  tFinal1 : Nat
  /-- A FINAL with two tail blocks. -/
  tFinal2 : Nat
deriving DecidableEq, Repr

/-- FREE VALUE (log entry 8): the byte read while BUSY = 1 at an address other than 0x00, "an unspecified byte"
(R238). `s` is the whole state, its draw counter included; `a` is the address. -/
opaque Config.freeReadByte {σ : Type} (s : σ) (a : Byte) : Byte

/-- FREE VALUE (log entry 2): what the hidden `W[0..63]` holds between commands, "unspecified" (R29). -/
opaque Config.freeSchedule {σ : Type} (s : σ) : Vector Word 64

/-- FREE VALUE (log entry 2): what the `j`-th of the hidden `a..h` holds between commands, "unspecified" (R29). -/
opaque Config.freeWorkWord {σ : Type} (s : σ) (j : Nat) : Word

/-- FREE VALUE (log entry 2): what the hidden `RND` holds between commands, "unspecified" within its range 0..64
(R20, R29). -/
opaque Config.freeRound {σ : Type} (s : σ) : Fin 65

end Sys2Proof
end

