-- ==== Sys2Proof/Syntax.lean ====
section
/-! DEFINITION. The commands of the opcode table (R71), and the host's own notation for them: assembler lines (R75)
and pseudo-instructions (R76). -/

namespace Sys2Proof

/-- The commands of the CORE, one constructor per row of spec/opcode_table.json (R71). ABSORB's operand is the
message byte `d`, any byte (R72). -/
inductive Instr where
  | nop
  | init
  | absorb (d : Byte)
  | final
deriving DecidableEq, Repr

/-- The operand of an assembler ABSORB (R75): a number written decimal or 0x-hexadecimal, or a character literal. -/
inductive AsmByte where
  | number (n : Nat)
  | char (c : Char)
deriving DecidableEq, Repr

/-- One assembler command (R75), before its operand is checked. -/
inductive AsmCommand where
  | nop
  | init
  | absorb (b : AsmByte)
  | final
deriving DecidableEq, Repr

/-- The host-side pseudo-instructions (R76). The CORE sees only their expansion. Text is turned into bytes by the
host (R5, R76). -/
inductive Pseudo where
  | absorbs (bytes : List Byte)
  | absorbsText (text : String)
  | hashBytes (bytes : List Byte)
  | hashText (text : String)
deriving DecidableEq, Repr

end Sys2Proof
end

