-- ==== Sys2Proof/WellFormed.lean ====
section
/-! DEFINITION. Which terms are well formed: instructions (all of them, R72), assembler operands (R75), timing
parameters (R240). -/

namespace Sys2Proof

/-- A byte of the assembler is a number 0 to 255, or a literal of an ASCII character (R75). -/
def AsmByte.wf : AsmByte → Bool
  | .number n => decide (n ≤ 255)
  | .char c => decide (c.toNat < 128)

/-- An assembler command is well formed when its operand is (R75). -/
def AsmCommand.wf : AsmCommand → Bool
  | .nop => true
  | .init => true
  | .absorb b => b.wf
  | .final => true

/-- Every instruction is well formed: ABSORB takes "any byte" (R71, R72) and the others have no operand. -/
def Instr.wf : Instr → Bool
  | .nop => true
  | .init => true
  | .absorb _ => true
  | .final => true

/-- Each timing parameter is an integer of at least 1 (R240). -/
def Timing.wf (t : Timing) : Bool :=
  decide (1 ≤ t.tAccept) && decide (1 ≤ t.tBlock) && decide (1 ≤ t.tFinal1) && decide (1 ≤ t.tFinal2)

end Sys2Proof
end

