-- ==== Sys2Proof/Decode.lean ====
section
/-! DEFINITION. The command encoding (30_encoding.md): the fields of a command word, the decoder (R74), total on
every 16-bit word and rejecting by name, and the encoder (R71, R75). -/

namespace Sys2Proof

/-- `OP`, bits 15:12 (R70). -/
def opField (c : CmdWord) : BitVec 4 := c.extractLsb' 12 4

/-- `RSV`, bits 11:8, must be 0 (R70). -/
def rsvField (c : CmdWord) : BitVec 4 := c.extractLsb' 8 4

/-- `DATA`, bits 7:0 (R70): ABSORB's byte, used unchanged (R72). -/
def dataField (c : CmdWord) : Byte := c.extractLsb' 0 8

/-- Why a word is illegal (R73). -/
inductive Illegal where
  /-- RSV is not zero. -/
  | reservedBits
  /-- DATA is not zero with NOP, INIT or FINAL. -/
  | unexpectedData
  /-- OP is 0x4 to 0xF. -/
  | reservedOp
deriving DecidableEq, Repr

/-- The decoder (R74): the tests in R74's order, its last ILLEGAL split into the two reasons R73 gives. -/
def decode (c : CmdWord) : Except Illegal Instr :=
  if rsvField c ≠ 0 then .error .reservedBits
  else if opField c = 0x0 ∧ dataField c = 0 then .ok .nop
  else if opField c = 0x1 ∧ dataField c = 0 then .ok .init
  else if opField c = 0x2 then .ok (.absorb (dataField c))
  else if opField c = 0x3 ∧ dataField c = 0 then .ok .final
  else if opField c < 0x4 then .error .unexpectedData
  else .error .reservedOp

/-- The word of an instruction (R71; R75: `ABSORB d` is `0x2000 + d`). -/
def encode : Instr → CmdWord
  | .nop => 0x0000
  | .init => 0x1000
  | .absorb d => 0x2000 + d.zeroExtend 16
  | .final => 0x3000

/-- The instruction the decoder reads from the word whose low `nbits` bits are those of `w` and whose other bits are
0. A command is one 16-bit word presented whole on `cmd_data` (R70), so there is no byte order to settle. -/
def decodeTableWord (nbits w : Nat) : Option Instr :=
  match decode (BitVec.ofNat 16 (w % 2 ^ nbits)) with
  | .ok i => some i
  | .error _ => none

/-! Each constructor's word, written out from the spec's encoding column. -/

theorem decode_nop_word : decode 0b0000_0000_00000000#16 = .ok .nop := by decide

theorem decode_init_word : decode 0b0001_0000_00000000#16 = .ok .init := by decide

theorem decode_absorb_word : decode 0b0010_0000_01100001#16 = .ok (.absorb 0x61) := by decide

theorem decode_final_word : decode 0b0011_0000_00000000#16 = .ok .final := by decide

end Sys2Proof
end

