-- ==== Sys2Proof/Machine/Rom.lean ====
section
/-! DEFINITION. The two constant tables (10_state.md R31), read-only, with the values 42_compressor.md R160 and R161
list (log entry 9), held as the spec prints them: rows of eight words. -/

namespace Sys2Proof.Machine

/-- A row of the tables of R160 and R161: eight words, the leftmost one most significant. -/
abbrev TableRow := BitVec 256

/-- The word in the column `j` of a row, counted from the left. -/
def rowWord (row : TableRow) (j : Nat) : Word := row.extractLsb' (224 - 32 * j) 32

/-- The rows `K[8r..8r+7]` of the table of R160. -/
def kRows : Vector TableRow 8 := #v[
  0x428a2f98_71374491_b5c0fbcf_e9b5dba5_3956c25b_59f111f1_923f82a4_ab1c5ed5,
  0xd807aa98_12835b01_243185be_550c7dc3_72be5d74_80deb1fe_9bdc06a7_c19bf174,
  0xe49b69c1_efbe4786_0fc19dc6_240ca1cc_2de92c6f_4a7484aa_5cb0a9dc_76f988da,
  0x983e5152_a831c66d_b00327c8_bf597fc7_c6e00bf3_d5a79147_06ca6351_14292967,
  0x27b70a85_2e1b2138_4d2c6dfc_53380d13_650a7354_766a0abb_81c2c92e_92722c85,
  0xa2bfe8a1_a81a664b_c24b8b70_c76c51a3_d192e819_d6990624_f40e3585_106aa070,
  0x19a4c116_1e376c08_2748774c_34b0bcb5_391c0cb3_4ed8aa4a_5b9cca4f_682e6ff3,
  0x748f82ee_78a5636f_84c87814_8cc70208_90befffa_a4506ceb_bef9a3f7_c67178f2]

/-- The round constants `K[0..63]` (R160). -/
def K : Vector Word 64 := Vector.ofFn fun i : Fin 64 => rowWord kRows[i.val / 8] (i.val % 8)

/-- The one row of the table of R161. -/
def ivRow : TableRow := 0x6a09e667_bb67ae85_3c6ef372_a54ff53a_510e527f_9b05688c_1f83d9ab_5be0cd19

/-- The initial hash value `IV[0..7]` (R161). -/
def IV : Vector Word 8 := Vector.ofFn fun i : Fin 8 => rowWord ivRow i.val

end Sys2Proof.Machine
end

