-- ==== Sys2Proof/Machine/State.lean ====
section
/-! DEFINITION. The state of one CORE instance (10_state.md R20) as plain data, with what the host does next beside
it, the state after reset (R231), and the reasons a step could stop. -/

namespace Sys2Proof.Machine

/-- What `CAUSE` holds: the code of the first fault since reset (R25, R211). Every code of the 2-bit field is one of
these; the code itself is `Cause.code`. -/
inductive Cause where
  | none
  | illegal
  | protocol
  | lenOverflow
deriving DecidableEq, Repr

/-- The working variables `a..h` of the compressor (R29). -/
structure WorkVars where
  a : Word
  b : Word
  c : Word
  d : Word
  e : Word
  f : Word
  g : Word
  h : Word
deriving DecidableEq, Repr

/-- A command that has been accepted and is not complete (R236): what BUSY = 1 stands for. -/
structure InFlight where
  instr : Instr
  /-- The rising edges still to come, the completing edge included. -/
  cyclesLeft : Nat
deriving DecidableEq, Repr

/-- One thing the host does (log entry 4). -/
inductive HostMove where
  /-- `cmd_valid = 0` and `rst = 0` for one edge. -/
  | idle
  /-- `cmd_valid = 1` with this word, held until it is accepted (R235, R237). -/
  | command (w : CmdWord)
  /-- `rst = 1` for one edge (R230). -/
  | reset
  /-- WAIT: no command is presented until STATUS reads BUSY = 0 (R77). -/
  | wait
  /-- The host puts `a` on `rd_addr` and takes the byte on `rd_data` (R55; log entry 18). -/
  | read (a : Byte)
deriving DecidableEq, Repr

/-- The state of the CORE (R20), the model's draw counter, the host's moves and what it has read. -/
structure State where
  /-- `BUSY` (R22): 1 exactly when a command is in flight, which is then held here (log entry 5). -/
  busy : Option InFlight
  /-- `DONE` (R23). -/
  done : Bool
  /-- `ERR` (R24). -/
  err : Bool
  /-- `CAUSE` (R25). -/
  cause : Cause
  /-- `LEN` (R26). -/
  len : BitVec 64
  /-- `FILL` (R27). -/
  fill : BitVec 6
  /-- `BUF[0..63]` (R28). -/
  buf : Vector Byte 64
  /-- `W[0..63]`, hidden (R29). -/
  w : Vector Word 64
  /-- `a..h`, hidden (R29). -/
  vars : WorkVars
  /-- `RND`, 0..64, hidden (R29). -/
  rnd : Fin 65
  /-- `H[0..7]` (R30). -/
  h : Vector Word 8
  /-- `DIGEST[0..31]` (R32). -/
  digest : Vector Byte 32
  /-- The model's own: counts the free draws, so that each is a fresh one (log entry 3). -/
  draw : Nat
  /-- The model's own: what the host does next, first move first (log entry 4). -/
  moves : List HostMove
  /-- The model's own: the bytes the host has read, first one first (log entry 18). -/
  readings : List Byte
deriving DecidableEq, Repr

/-- Why the machine would stop with a fault: never. The CORE's own faults (R211) set ERR and CAUSE and go on (R212,
R217), so each is a next state. -/
inductive Fault where
deriving DecidableEq, Repr

/-- Why the machine would refuse an instruction. -/
inductive Refusal where
  /-- Raised by `exec` alone, for an instruction that has no meaning yet. Safe. No arm raises it: every row of the
  table has its meaning. -/
  | notModelled (mnemonic : String)
deriving DecidableEq, Repr

/-- The state after reset (R231). `W`, `a..h` and `RND` are unspecified there (R29): 0, a DESIGN CHOICE (log entry
1). The draw counter, the host's moves and its readings are the model's own (log entries 3, 4 and 18). -/
def State.reset : State where
  busy := none
  done := false
  err := false
  cause := .none
  len := 0
  fill := 0
  buf := Vector.replicate 64 0
  w := Vector.replicate 64 0
  vars := ⟨0, 0, 0, 0, 0, 0, 0, 0⟩
  rnd := 0
  h := IV
  digest := Vector.replicate 32 0
  draw := 0
  moves := []
  readings := []

end Sys2Proof.Machine
end

