-- ==== Sys2Proof/Machine/Ops.lean ====
section
/-! DEFINITION. The operations shared by the commands and the blocks: rotation and byte order (R10, R11), blocks of
bytes, the fault action and the reset beside it (R212, R230), the free hidden state (R29). -/

namespace Sys2Proof.Machine

/-- A 64-byte block (R110). -/
abbrev Block := Vector Byte 64

/-- The 8-word hash state (R30). -/
abbrev HashState := Vector Word 8

/-! ### Bits and bytes -/

/-- `rotr(x, n)` for `0 < n < 32` (R10). -/
def rotr (x : Word) (n : Nat) : Word := (x >>> n) ||| (x <<< (32 - n))

/-- `be32(b0, b1, b2, b3)`: the first byte is the most significant (R11). -/
def be32 (b0 b1 b2 b3 : Byte) : Word := b0 ++ b1 ++ b2 ++ b3

/-- `be32_bytes(w)` (R11). -/
def be32Bytes (w : Word) : List Byte :=
  [w.extractLsb' 24 8, w.extractLsb' 16 8, w.extractLsb' 8 8, w.extractLsb' 0 8]

/-- `be64_bytes(v)` (R11). -/
def be64Bytes (v : BitVec 64) : List Byte :=
  [v.extractLsb' 56 8, v.extractLsb' 48 8, v.extractLsb' 40 8, v.extractLsb' 32 8,
   v.extractLsb' 24 8, v.extractLsb' 16 8, v.extractLsb' 8 8, v.extractLsb' 0 8]

/-- The block of a byte sequence of 64 bytes. Every sequence a rule of the CORE makes a block of has 64 bytes (R108,
R194), so the 0 for a missing byte is never used (R51). -/
def blockOf (bytes : List Byte) : Block := Vector.ofFn fun i : Fin 64 => bytes.getD i.val 0

/-- `L_MAX = 2^61 - 1`, the greatest message length in bytes (R7). -/
def lMax : BitVec 64 := 0x1FFFFFFFFFFFFFFF

/-! ### Faults, reset, hidden state -/

/-- The fault action (R212): ERR and CAUSE, nothing else. It is executed with ERR = 0 only (`unlessErr`). There is
no return from a fault (R218): only `resetEdge` clears ERR and CAUSE. -/
def raiseFault (cause : Cause) (s : State) : State := { s with err := true, cause := cause }

/-- While ERR = 1 an accepted command has no effect (R111, R217); otherwise its own effect `body` takes place. -/
def unlessErr (s : State) (body : Host.Outcome State Fault Refusal) : Host.Outcome State Fault Refusal :=
  if s.err then .next s else body

/-- The hidden `W`, `a..h`, `RND` hold unspecified values between commands (R29): a fresh free draw for each (log
entry 2). -/
def redraw (s : State) : State :=
  { s with
    w := Config.freeSchedule s
    vars := ⟨Config.freeWorkWord s 0, Config.freeWorkWord s 1, Config.freeWorkWord s 2, Config.freeWorkWord s 3,
      Config.freeWorkWord s 4, Config.freeWorkWord s 5, Config.freeWorkWord s 6, Config.freeWorkWord s 7⟩
    rnd := Config.freeRound s
    draw := s.draw + 1 }

/-- The state with other moves of the host to come. -/
def setMoves (ms : List HostMove) (s : State) : State := { s with moves := ms }

/-- A rising edge with `rst = 1` (R230): the reset state of R231, whatever the CORE was doing; the hidden state is
unspecified (R231), so it is drawn. The host's moves and readings and the draw counter are no state of the CORE. -/
def resetEdge (s : State) : State :=
  redraw { State.reset with moves := s.moves, readings := s.readings, draw := s.draw }

/-- The command in flight is over (R236): BUSY back to 0. -/
def release (s : State) : State := { s with busy := none }

end Sys2Proof.Machine
end

