-- ==== Sys2Proof/Machine/Operands.lean ====
section
/-! DEFINITION. The operands of the commands (R72): ABSORB's byte and where it goes; the bytes FINAL reads. No
command names a register or an address. -/

namespace Sys2Proof.Machine

/-- `BUF with B[FILL] = d` (R106): ABSORB's operand, unchanged (R72), at the position FILL. -/
def bufWithByte (s : State) (d : Byte) : Block := s.buf.set s.fill.toNat d s.fill.isLt

/-- `BUF[0..FILL)` (R107): the bytes of the current block, which are all that FINAL reads of BUF (R28). -/
def tailBytes (s : State) : List Byte := s.buf.toList.take s.fill.toNat

end Sys2Proof.Machine
end

