-- ==== Sys2Proof/Machine/Scheduler.lean ====
section
/-! DEFINITION. The scheduler block (41_scheduler.md): one 64-byte block to the 64-word schedule `W`. -/

namespace Sys2Proof.Machine

/-- `sigma0` (R142); `>>` is the logical shift. -/
def sigma0 (x : Word) : Word := rotr x 7 ^^^ rotr x 18 ^^^ (x >>> 3)

/-- `sigma1` (R143). -/
def sigma1 (y : Word) : Word := rotr y 17 ^^^ rotr y 19 ^^^ (y >>> 10)

/-- `W[t]` for `t` in 0..15: the big-endian word of four bytes of the block (R141). -/
def messageWord (blk : Block) (t : Fin 16) : Word :=
  be32 blk[4 * t.val] blk[4 * t.val + 1] blk[4 * t.val + 2] blk[4 * t.val + 3]

/-- The schedule before its expansion: the message words (R141); positions 16 to 63 are written before they are
read (R144, R232). -/
def messageWords (blk : Block) : Vector Word 64 :=
  Vector.ofFn fun i : Fin 64 => if h : i.val < 16 then messageWord blk ⟨i.val, h⟩ else 0

/-- One word of the expansion: `W[i]` for `i = n + 16` (R144), the sums modulo 2^32 (R9). -/
def expandWord (w : Vector Word 64) (n : Fin 48) : Vector Word 64 :=
  let i := n.val + 16
  w.set i (w[i - 16] + sigma0 w[i - 15] + w[i - 7] + sigma1 w[i - 2])

/-- The schedule after the first `n` expansion words, in increasing order (R144). -/
def scheduleUpTo (blk : Block) : (n : Nat) → n ≤ 48 → Vector Word 64
  | 0, _ => messageWords blk
  | n + 1, h => expandWord (scheduleUpTo blk n (Nat.le_of_succ_le h)) ⟨n, h⟩

/-- `SCHEDULE(blk)` (R145). -/
def schedule (blk : Block) : Vector Word 64 := scheduleUpTo blk 48 (Nat.le_refl 48)

end Sys2Proof.Machine
end

