-- ==== Sys2Proof/Machine/Compressor.lean ====
section
/-! DEFINITION. The compressor block (42_compressor.md): the round functions, one round, 64 rounds, the block step. -/

namespace Sys2Proof.Machine

/-- `Sigma1` (R162). -/
def bigSigma1 (e : Word) : Word := rotr e 6 ^^^ rotr e 11 ^^^ rotr e 25

/-- `Ch` (R163). -/
def ch (e f g : Word) : Word := (e &&& f) ^^^ (~~~e &&& g)

/-- `Sigma0` (R164). -/
def bigSigma0 (a : Word) : Word := rotr a 2 ^^^ rotr a 13 ^^^ rotr a 22

/-- `Maj` (R165). -/
def maj (a b c : Word) : Word := (a &&& b) ^^^ (a &&& c) ^^^ (b &&& c)

/-- One round (R166): all eight working variables are written at once, from their values before the round. -/
def round (i : Fin 64) (v : WorkVars) (w : Vector Word 64) : WorkVars :=
  let t1 := v.h + bigSigma1 v.e + ch v.e v.f v.g + K[i.val] + w[i.val]
  let t2 := bigSigma0 v.a + maj v.a v.b v.c
  { a := t1 + t2, b := v.a, c := v.b, d := v.c, e := v.d + t1, f := v.e, g := v.f, h := v.g }

/-- The working variables as a block step starts: the current hash state (R167). -/
def initialVars (hin : HashState) : WorkVars :=
  { a := hin[0], b := hin[1], c := hin[2], d := hin[3], e := hin[4], f := hin[5], g := hin[6], h := hin[7] }

/-- The working variables after the first `n` rounds, in increasing order (R167); `n` is `RND` (R29). -/
def roundsUpTo (hin : HashState) (w : Vector Word 64) : (n : Nat) → n ≤ 64 → WorkVars
  | 0, _ => initialVars hin
  | n + 1, h => round ⟨n, h⟩ (roundsUpTo hin w n (Nat.le_of_succ_le h)) w

/-- `COMPRESS(Hin, W)` (R167): the working variables after 64 rounds are added to the block-entry state (R168). -/
def compress (hin : HashState) (w : Vector Word 64) : HashState :=
  let v := roundsUpTo hin w 64 (Nat.le_refl 64)
  #v[hin[0] + v.a, hin[1] + v.b, hin[2] + v.c, hin[3] + v.d,
     hin[4] + v.e, hin[5] + v.f, hin[6] + v.g, hin[7] + v.h]

/-- `BLOCK_STEP(H, blk)` (R170). -/
def blockStep (h : HashState) (blk : Block) : HashState := compress h (schedule blk)

/-- `n` block steps over the first `n` 64-byte pieces of a byte sequence, in order (R103). -/
def blockSteps : Nat → HashState → List Byte → HashState
  | 0, h, _ => h
  | n + 1, h, bytes => blockSteps n (blockStep h (blockOf (bytes.take 64))) (bytes.drop 64)

/-- `BLOCK_STEP*(H, S)` for a byte sequence of length a multiple of 64 (R103). -/
def blockStepStar (h : HashState) (bytes : List Byte) : HashState := blockSteps (bytes.length / 64) h bytes

end Sys2Proof.Machine
end

