-- ==== Sys2Proof/Machine/Finalizer.lean ====
section
/-! DEFINITION. The finalizer block (43_finalizer.md): the digest bytes and their hexadecimal view. -/

namespace Sys2Proof.Machine

/-- `SERIALIZE(H)` as a byte sequence (R190). -/
def serializeBytes (h : HashState) : List Byte :=
  be32Bytes h[0] ++ be32Bytes h[1] ++ be32Bytes h[2] ++ be32Bytes h[3] ++
  be32Bytes h[4] ++ be32Bytes h[5] ++ be32Bytes h[6] ++ be32Bytes h[7]

/-- `SERIALIZE(H)`, the 32 bytes FINAL writes to DIGEST (R190, R191). -/
def serialize (h : HashState) : Vector Byte 32 := ⟨(serializeBytes h).toArray, by simp [serializeBytes, be32Bytes]⟩

/-- `hexchar(n)`: '0'..'9', 'a'..'f' (R192). -/
def hexChar (n : BitVec 4) : Byte := if n ≤ 9 then 0x30 + n.zeroExtend 8 else 0x61 + (n.zeroExtend 8 - 10)

/-- `HEX[0..63]` of a digest: two lowercase characters a byte, the high nibble first (R192). -/
def hexView (digest : Vector Byte 32) : Vector Byte 64 :=
  Vector.ofFn fun j : Fin 64 =>
    let b := digest[j.val / 2]
    if j.val % 2 = 0 then hexChar (b.extractLsb' 4 4) else hexChar (b.extractLsb' 0 4)

end Sys2Proof.Machine
end

