-- ==== Sys2Proof/Machine/Padder.lean ====
section
/-! DEFINITION. The padding contract (R100, R101), the padder's tail blocks (R108), and the digest of a whole message
(R194). -/

namespace Sys2Proof.Machine

/-- `k = (55 - L) mod 64`, the count of zero bytes (R100). -/
def zeroFill (len : Nat) : Nat := ((55 - (len : Int)) % 64).toNat

/-- `PAD(M)` (R100). -/
def pad (m : List Byte) : List Byte :=
  m ++ [0x80] ++ List.replicate (zeroFill m.length) 0x00 ++ be64Bytes (BitVec.ofNat 64 (8 * m.length))

/-- `N(L) = floor((L + 8) / 64) + 1`, the number of blocks of a padded message of `L` bytes (R101). -/
def blockCount (len : Nat) : Nat := (len + 8) / 64 + 1

/-- The one or two blocks `PAD_TAIL` returns (R108). -/
structure TailBlocks where
  first : Block
  second : Option Block
deriving DecidableEq, Repr

/-- The last of the tail blocks, which FINAL leaves in BUF (R107). -/
def TailBlocks.last (t : TailBlocks) : Block := t.second.getD t.first

/-- The tail blocks in order. -/
def TailBlocks.toList (t : TailBlocks) : List Block := t.first :: t.second.toList

/-- `PAD_TAIL(T, L)` (R108), `r = len(T)`. -/
def padTail (t : List Byte) (len : BitVec 64) : TailBlocks :=
  let r := t.length
  let lenBytes := be64Bytes (8 * len)
  if r ≤ 55 then
    { first := blockOf (t ++ [0x80] ++ List.replicate (55 - r) 0x00 ++ lenBytes), second := none }
  else
    { first := blockOf (t ++ [0x80] ++ List.replicate (63 - r) 0x00)
      second := some (blockOf (List.replicate 56 0x00 ++ lenBytes)) }

/-- The `j`-th 64 bytes of a byte sequence, `S[64j .. 64j + 64)`. -/
def nthBlock (bytes : List Byte) (j : Nat) : Block := blockOf ((bytes.drop (64 * j)).take 64)

/-- `SHA256(M)` (R194): pad, one block step for each block in order from IV, serialise. -/
def sha256 (m : List Byte) : Vector Byte 32 :=
  let p := pad m
  serialize ((List.range (p.length / 64)).foldl (fun h j => blockStep h (nthBlock p j)) IV)

end Sys2Proof.Machine
end

