-- ==== Sys2Proof/Machine/Commands.lean ====
section
/-! DEFINITION. The meaning of each command (40_padder.md, section 3), run after the ERR check of the dispatch (R111),
which each of them makes through `unlessErr` (log entry 12). -/

namespace Sys2Proof.Machine

/-- INIT's writes (R104): LEN, FILL, DONE to 0, H to IV. ERR, CAUSE, DIGEST and BUF are unchanged. -/
def startMessage (s : State) : State := { s with len := 0, fill := 0, done := false, h := IV }

/-- ABSORB's writes when the byte does not fill the block (R106). -/
def storeByte (d : Byte) (s : State) : State :=
  { s with buf := bufWithByte s d, len := s.len + 1, fill := s.fill + 1 }

/-- ABSORB's writes when the byte fills the block (R106): the block is compressed. The hidden state is drawn, as
after every block step (R29, R170). -/
def storeLastByte (d : Byte) (s : State) : State :=
  redraw { s with buf := bufWithByte s d, len := s.len + 1, h := blockStep s.h (bufWithByte s d), fill := 0 }

/-- The hash state after the tail blocks (R107). -/
def compressTail (h : HashState) (t : TailBlocks) : HashState :=
  match t.second with
  | none => blockStep h t.first
  | some b => blockStep (blockStep h t.first) b

/-- FINAL's writes (R107): LEN is unchanged. The hidden state is drawn (R29, R170). -/
def finishMessage (s : State) : State :=
  let blocks := padTail (tailBytes s) s.len
  let h2 := compressTail s.h blocks
  redraw { s with h := h2, digest := serialize h2, buf := blocks.last, fill := 0, done := true }

/-- The fault a command raises in this state, if any (R106, R107, R211, R215, R216); NOP and INIT raise none. It is
what the clocked machine asks for the length of a command (R236); the meanings below make their own checks. -/
def commandFault (i : Instr) (s : State) : Option Cause :=
  match i with
  | .nop => none
  | .init => none
  | .absorb _ => if s.done then some .protocol else if s.len = lMax then some .lenOverflow else none
  | .final => if s.done then some .protocol else none

/-- NOP (R105): no state change. -/
def execNop (s : State) : Host.Outcome State Fault Refusal := unlessErr s (.next s)

/-- INIT (R104), legal in both phases. -/
def execInit (s : State) : Host.Outcome State Fault Refusal := unlessErr s (.next (startMessage s))

/-- ABSORB `d` (R106): PROTOCOL is checked before LEN_OVERFLOW (R216). -/
def execAbsorb (d : Byte) (s : State) : Host.Outcome State Fault Refusal :=
  unlessErr s <|
    if s.done then .next (raiseFault .protocol s)
    else if s.len = lMax then .next (raiseFault .lenOverflow s)
    else if s.fill = 63 then .next (storeLastByte d s)
    else .next (storeByte d s)

/-- FINAL (R107). -/
def execFinal (s : State) : Host.Outcome State Fault Refusal :=
  unlessErr s <|
    if s.done then .next (raiseFault .protocol s)
    else .next (finishMessage s)

/-- An accepted word that decodes to no command (R111, R214). -/
def execIllegal (s : State) : Host.Outcome State Fault Refusal := unlessErr s (.next (raiseFault .illegal s))

end Sys2Proof.Machine
end

