-- ==== Sys2Proof/Machine/Flags.lean ====
section
/-! DEFINITION. The status bits and the fault code as the host sees them (R22 to R25, R34 to R36). Which command
writes which flag stands in the command's own meaning (R104 to R107) and in `raiseFault` (R212). -/

namespace Sys2Proof.Machine

/-- The code of a cause (R25, R211). -/
def Cause.code : Cause → BitVec 2
  | .none => 0
  | .illegal => 1
  | .protocol => 2
  | .lenOverflow => 3

/-- The bit `BUSY` (R22): a command is in flight. -/
def State.isBusy (s : State) : Bool := s.busy.isSome

/-- STATUS (R34): `{0b00000, ERR, DONE, BUSY}`. -/
def statusByte (s : State) : Byte :=
  0#5 ++ BitVec.ofBool s.err ++ BitVec.ofBool s.done ++ BitVec.ofBool s.isBusy

/-- The CAUSE register (R35): `{0b000000, CAUSE[1:0]}`. -/
def causeByte (s : State) : Byte := 0#6 ++ s.cause.code

/-- The FILL register (R36): `{0b00, FILL[5:0]}`. -/
def fillByte (s : State) : Byte := 0#2 ++ s.fill

end Sys2Proof.Machine
end

