-- ==== Sys2Proof/Machine/ReadPort.lean ====
section
/-! DEFINITION. The read port (20_memory.md): 256 addresses of one byte, a function of the state with no side effect
(R50, R55 to R57). -/

namespace Sys2Proof.Machine

/-- `LEN[63 - 8j : 56 - 8j]`, the byte at the address 0x08 + j (R37). -/
def lenByte (s : State) (j : Fin 8) : Byte := s.len.extractLsb' (56 - 8 * j.val) 8

/-- The read space while BUSY = 0 (R55, R56), at an address as a number; every address it does not name is reserved
and reads 0x00 (R57). -/
def rdIdle (a : Nat) (s : State) : Byte :=
  if a = 0x00 then statusByte s
  else if a = 0x01 then causeByte s
  else if a = 0x02 then fillByte s
  else if h : 0x08 ≤ a ∧ a ≤ 0x0F then lenByte s ⟨a - 0x08, by omega⟩
  else if h : 0x20 ≤ a ∧ a ≤ 0x3F then s.digest[a - 0x20]
  else if h : 0x40 ≤ a ∧ a ≤ 0x7F then (hexView s.digest)[a - 0x40]
  else 0x00

/-- `RdRead(a)` (R55). While BUSY = 1 the address 0x00 returns STATUS and every other one an unspecified byte, a free
value (R238; log entry 8). -/
def rdRead (a : Byte) (s : State) : Byte :=
  if s.isBusy then (if a = 0x00 then statusByte s else Config.freeReadByte s a)
  else rdIdle a.toNat s

/-- The host takes the byte at the address `a`. Nothing of the CORE changes (R50, R55). -/
def takeReading (a : Byte) (s : State) : State := { s with readings := s.readings ++ [rdRead a s] }

end Sys2Proof.Machine
end

