-- ==== Sys2Proof/Machine/Accept.lean ====
section
/-! DEFINITION. The acceptance of a command word (R111, R235) and the transaction: one whole step of the machine
(R12). -/

namespace Sys2Proof.Machine

/-- An accepted word (R111): decoded, then run; an illegal word raises ILLEGAL (R214). -/
def accept (c : CmdWord) (s : State) : Host.Outcome State Fault Refusal :=
  match decode c with
  | .ok i => exec i s
  | .error _ => execIllegal s

/-- What the host has done after an edge at which it presented no word that was accepted: an idle edge is over; a
read has taken its byte (R55; log entry 18); a WAIT ends when BUSY = 0 (R77); a presented word is held (R237). -/
def passEdge (s : State) : State :=
  match s.moves with
  | .idle :: rest => setMoves rest s
  | .read a :: rest => setMoves rest (takeReading a s)
  | .wait :: rest => if s.isBusy then s else setMoves rest s
  | _ => s

/-- The command in flight completes (R236): all its writes take effect together and BUSY returns to 0. -/
def complete (p : InFlight) (s : State) : Host.Outcome State Fault Refusal := exec p.instr (release s)

/-- One transaction. A reset comes first, whatever the CORE is doing (R230). A command in flight completes, and no
word is accepted meanwhile (R235; log entry 5). Otherwise the host's word is accepted and its whole effect takes
place (R12); with no word presented nothing of the CORE changes (R55, R235). -/
def transaction (s : State) : Host.Outcome State Fault Refusal :=
  match s.moves with
  | .reset :: rest => .next (resetEdge (setMoves rest s))
  | .command c :: rest =>
    match s.busy with
    | some p => complete p s
    | none => accept c (setMoves rest s)
  | _ =>
    match s.busy with
    | some p => complete p s
    | none => .next (passEdge s)

end Sys2Proof.Machine
end

