-- ==== Sys2Proof/Machine/Step.lean ====
section
/-! DEFINITION. The step of the machine: one transaction (R12). -/

namespace Sys2Proof.Machine

/-- One step (R12): one transaction. -/
def step (s : State) : Host.Outcome State Fault Refusal := transaction s

/-- The same state, with no command in flight and the word whose low `nbits` bits are those of `w`, its other bits 0,
as the word the host presents next: the next step accepts it (R235). Nothing is fetched (R21, R61): a command stands
on `cmd_data` (log entry 4). -/
def State.withFetchWord (s : State) (nbits w : Nat) : State :=
  { s with busy := none, moves := .command (BitVec.ofNat 16 (w % 2 ^ nbits)) :: s.moves }

end Sys2Proof.Machine
end

