-- ==== Sys2Proof/Machine/Clock.lean ====
section
/-! DEFINITION. The clocked machine (70_reset_and_hazards.md): one rising edge of `clk`, over the same state and the
same meanings as the transaction, for any timing parameters (R240). -/

namespace Sys2Proof.Machine

/-- The input `rst` (R40): the host's next move is a reset. -/
def rstPin (s : State) : Bool :=
  match s.moves with
  | .reset :: _ => true
  | _ => false

/-- The inputs `cmd_valid` and `cmd_data` (R40): the word the host presents, if it presents one. -/
def cmdPin (s : State) : Option CmdWord :=
  match s.moves with
  | .command c :: _ => some c
  | _ => none

/-- The output `cmd_ready = (not BUSY) and (not rst)` (R235). -/
def cmdReady (s : State) : Bool := !s.isBusy && !rstPin s

/-- The output `done` (R40). -/
def donePin (s : State) : Bool := s.done

/-- The output `err` (R40). -/
def errPin (s : State) : Bool := s.err

/-- The cycles a command takes, from its acceptance in the state `s` (R240). A command accepted while ERR = 1 and a
command that faults take one cycle (R236). -/
def latency (t : Timing) (i : Instr) (s : State) : Nat :=
  if s.err ∨ (commandFault i s).isSome then 1
  else
    match i with
    | .nop => t.tAccept
    | .init => t.tAccept
    | .absorb _ => if s.fill = 63 then t.tBlock else t.tAccept
    | .final => if s.fill ≤ 55 then t.tFinal1 else t.tFinal2

/-- The state with a command in flight: BUSY = 1 (R236). -/
def occupy (p : InFlight) (s : State) : State := { s with busy := some p }

/-- An edge while a command is in flight and not complete: one cycle less. Nothing visible changes; the hidden state
is being computed, in no specified order (R29, R171), so it is drawn. -/
def tick (p : InFlight) (s : State) : State :=
  redraw (occupy { p with cyclesLeft := p.cyclesLeft - 1 } (passEdge s))

/-- The acceptance edge of a word (R235, R236): a command of one cycle, an ignored command and a faulting one
complete at this edge; any other one is in flight from here on. -/
def acceptEdge (t : Timing) (c : CmdWord) (s : State) : Host.Outcome State Fault Refusal :=
  match decode c with
  | .error _ => execIllegal s
  | .ok i =>
    if latency t i s ≤ 1 then exec i s
    else .next (occupy { instr := i, cyclesLeft := latency t i s - 1 } s)

/-- An edge with a command in flight (R236): its last edge completes it, an earlier one counts. -/
def busyEdge (p : InFlight) (s : State) : Host.Outcome State Fault Refusal :=
  if p.cyclesLeft ≤ 1 then complete p (passEdge s) else .next (tick p s)

/-- One rising edge of `clk`. -/
def edge (t : Timing) (s : State) : Host.Outcome State Fault Refusal :=
  match s.moves with
  | .reset :: rest => .next (resetEdge (setMoves rest s))
  | .command c :: rest =>
    match s.busy with
    | some p => busyEdge p s
    | none => acceptEdge t c (setMoves rest s)
  | _ =>
    match s.busy with
    | some p => busyEdge p s
    | none => .next (passEdge s)

/-- The clocked machine of the timing `t`. -/
def clocked (t : Timing) : Host.Core where
  State := State
  Fault := Fault
  Refusal := Refusal
  step := edge t
  reset := State.reset

end Sys2Proof.Machine
end

