-- ==== Sys2Proof/Machine/HostSide.lean ====
section
/-! DEFINITION. What the host makes of its own notation: the assembler lines (R75) and the pseudo-instructions (R76).
None of it is seen by the CORE but the words and moves that result. -/

namespace Sys2Proof.Machine

/-! ### Assembler (R75) -/

/-- The value of an assembler byte (R75): the number, or the ASCII code of the character. -/
def asmByteValue : AsmByte → Byte
  | .number n => BitVec.ofNat 8 n
  | .char c => BitVec.ofNat 8 c.toNat

/-- The instruction of an assembler command. -/
def asmInstr : AsmCommand → Instr
  | .nop => .nop
  | .init => .init
  | .absorb b => .absorb (asmByteValue b)
  | .final => .final

/-- One assembler command to one word (R75); none for an operand that is no byte. -/
def assemble (c : AsmCommand) : Option CmdWord := if c.wf then some (encode (asmInstr c)) else none

/-- The value of a digit of a number in the base 10 or 16; either case of a letter (log entry 13). -/
def digitValue (base : Nat) (c : Char) : Option Nat :=
  let v :=
    if '0'.toNat ≤ c.toNat ∧ c.toNat ≤ '9'.toNat then some (c.toNat - '0'.toNat)
    else if 'a'.toNat ≤ c.toNat ∧ c.toNat ≤ 'f'.toNat then some (c.toNat - 'a'.toNat + 10)
    else if 'A'.toNat ≤ c.toNat ∧ c.toNat ≤ 'F'.toNat then some (c.toNat - 'A'.toNat + 10)
    else none
  v.filter (· < base)

/-- A number of at least one digit, most significant digit first, and the rest of the line. -/
def readDigits (base : Nat) : Option Nat → List Char → Option (Nat × List Char)
  | acc, [] => acc.map (·, [])
  | acc, c :: cs =>
    match digitValue base c with
    | some v => readDigits base (some (acc.getD 0 * base + v)) cs
    | none => acc.map (·, c :: cs)

/-- The operand of ABSORB and the rest of the line (R75). -/
def readByte : List Char → Option (AsmByte × List Char)
  | '\'' :: c :: '\'' :: rest => some (.char c, rest)
  | '0' :: 'x' :: rest => (readDigits 16 none rest).map fun r => (.number r.1, r.2)
  | cs => (readDigits 10 none cs).map fun r => (.number r.1, r.2)

/-- Only blanks are left, or a comment (R75: `;` starts one). -/
def lineEnds (cs : List Char) : Bool :=
  match cs.dropWhile (· == ' ') with
  | [] => true
  | c :: _ => c == ';'

/-- One assembler line (R75): none for a line that is no command, `some none` for a blank or comment line. -/
def parseLine (cs : List Char) : Option (Option AsmCommand) :=
  match cs.dropWhile (· == ' ') with
  | 'N' :: 'O' :: 'P' :: rest => if lineEnds rest then some (some .nop) else none
  | 'I' :: 'N' :: 'I' :: 'T' :: rest => if lineEnds rest then some (some .init) else none
  | 'F' :: 'I' :: 'N' :: 'A' :: 'L' :: rest => if lineEnds rest then some (some .final) else none
  | 'A' :: 'B' :: 'S' :: 'O' :: 'R' :: 'B' :: ' ' :: rest =>
    match readByte (rest.dropWhile (· == ' ')) with
    | some (b, rest') => if lineEnds rest' then some (some (.absorb b)) else none
    | none => none
  | rest => if lineEnds rest then some none else none

/-! ### Pseudo-instructions (R76) -/

/-- The host presents this instruction's word. -/
def present (i : Instr) : HostMove := .command (encode i)

/-- `ABSORBS [b0, ..., bn-1]` (R76). -/
def absorbMoves (bytes : List Byte) : List HostMove := bytes.map fun b => present (.absorb b)

/-- The UTF-8 bytes of a text, in order (R76; the host's, D31). -/
def utf8Bytes (text : String) : List Byte := text.toUTF8.data.toList.map (·.toBitVec)

/-- What `HASH_BYTES` and `HASH_TEXT` begin with (R76): `INIT`; `ABSORBS`; `FINAL`; `WAIT`. -/
def hashMoves (bytes : List Byte) : List HostMove :=
  present .init :: absorbMoves bytes ++ [present .final, .wait]

/-- The host reads `n` addresses in increasing order, the first of them `first`. -/
def readMoves (first n : Nat) : List HostMove := (List.range n).map fun i => .read (BitVec.ofNat 8 (first + i))

/-- "read DIGEST at 0x20..0x3F" (R76). -/
def readDigest : List HostMove := readMoves 0x20 32

/-- "read HEX at 0x40..0x7F" (R76). -/
def readHex : List HostMove := readMoves 0x40 64

/-- The expansion of a pseudo-instruction (R76). -/
def expandPseudo : Pseudo → List HostMove
  | .absorbs bytes => absorbMoves bytes
  | .absorbsText text => absorbMoves (utf8Bytes text)
  | .hashBytes bytes => hashMoves bytes ++ readDigest
  | .hashText text => hashMoves (utf8Bytes text) ++ readHex

end Sys2Proof.Machine
end

