-- ==== Sys2Proof/Safety.lean ====
section
/-! DEFINITION. The terms claims are stated in: what the host can see of a state, when the digest is a result (R239),
the invariants of the registers (R25 to R27, R103, R236), and what a state says of the message absorbed (R103). -/

namespace Sys2Proof.Machine

/-- The registers of the CORE that a command leaves behind: all of R20 but BUSY and the hidden `W`, `a..h`, `RND`. -/
structure Registers where
  done : Bool
  err : Bool
  cause : Cause
  len : BitVec 64
  fill : BitVec 6
  buf : Block
  h : HashState
  digest : Vector Byte 32
deriving DecidableEq, Repr

/-- The registers of a state. -/
def State.registers (s : State) : Registers where
  done := s.done
  err := s.err
  cause := s.cause
  len := s.len
  fill := s.fill
  buf := s.buf
  h := s.h
  digest := s.digest

/-- DIGEST and HEX hold the digest of the message just finished (R239): BUSY = 0, DONE = 1, ERR = 0. -/
def State.resultValid (s : State) : Bool := !s.isBusy && s.done && !s.err

/-- The step of this state runs the command `i`: the host's word is accepted and decodes to it, or it is the command
in flight and no reset abandons it. -/
def State.Runs (s : State) (i : Instr) : Prop :=
  (s.busy = none ∧ ∃ c rest, s.moves = .command c :: rest ∧ decode c = .ok i) ∨
  (s.moves.head? ≠ some .reset ∧ ∃ p, s.busy = some p ∧ p.instr = i)

/-- The longest of the four timing parameters (R242). -/
def longestCommand (t : Timing) : Nat := max (max t.tAccept t.tBlock) (max t.tFinal1 t.tFinal2)

/-- The invariant of the registers. -/
structure State.Inv (s : State) : Prop where
  /-- `LEN ≤ L_MAX` (R26). -/
  len_le : s.len ≤ lMax
  /-- While absorbing, `FILL = LEN mod 64` (R27). -/
  fill_absorbing : s.done = false → s.fill.toNat = s.len.toNat % 64
  /-- When done, `FILL = 0` (R27). -/
  fill_done : s.done = true → s.fill = 0
  /-- When done, DIGEST is the serialisation of H (R103). -/
  digest_done : s.done = true → s.digest = serialize s.h
  /-- CAUSE is NONE exactly while there has been no fault since reset (R25, R212). -/
  cause_none : s.err = false ↔ s.cause = .none

/-- What holds of a command in flight (R236): it was accepted with ERR = 0, it does not fault, and it is not over. -/
def State.FlightInv (s : State) : Prop :=
  ∀ p, s.busy = some p → s.err = false ∧ commandFault p.instr s = none ∧ 1 ≤ p.cyclesLeft

/-- The state holds the message `m` (R103): absorbed so far while DONE = 0, finished when DONE = 1. -/
structure Represents (s : State) (m : List Byte) : Prop where
  /-- The message is one the CORE accepts (R7). -/
  short : m.length ≤ 2 ^ 61 - 1
  len_eq : s.len.toNat = m.length
  fill_absorbing : s.done = false → s.fill.toNat = m.length % 64
  /-- `BUF[0..FILL) = M[n - FILL .. n)`. -/
  tail_absorbing : s.done = false → tailBytes s = m.drop (m.length - m.length % 64)
  /-- `H = BLOCK_STEP*(IV, M[0 .. n - FILL))`. -/
  h_absorbing : s.done = false → s.h = blockStepStar IV (m.take (m.length - m.length % 64))
  fill_done : s.done = true → s.fill = 0
  /-- H is the final state of `PAD(M)`. -/
  h_done : s.done = true → s.h = blockStepStar IV (pad m)
  /-- `DIGEST = SERIALIZE(H) = SHA256(M)`. -/
  digest_done : s.done = true → s.digest = serialize s.h ∧ s.digest = sha256 m

end Sys2Proof.Machine
end

