-- ==== Sys2Proof/Certificates/Slice0/Obligations.lean ====
section
/-! DEFINITION. The statements for the provers, in the order of the spec's files: encoding, the four commands, faults,
reset, the read port, the blocks, the padding contract, the invariants, whole messages, the clocked machine. -/

open Sys2Proof Sys2Proof.Machine

/-! ### Encoding (30_encoding.md) -/

/-- Words written out from the opcode map and from the decode table of 95_test_vectors.md, section 2.6. -/
def Obligations.DecodeReadsTheWrittenOutWords : Prop :=
  decode 0x0000#16 = .ok .nop ∧ decode 0x1000#16 = .ok .init ∧ decode 0x2000#16 = .ok (.absorb 0x00) ∧
  decode 0x2080#16 = .ok (.absorb 0x80) ∧ decode 0x20ff#16 = .ok (.absorb 0xff) ∧ decode 0x3000#16 = .ok .final ∧
  (∀ c ∈ [0x0001#16, 0x0100#16, 0x1001#16, 0x2100#16, 0x3080#16, 0x4000#16, 0xf0ff#16, 0xffff#16],
    ∃ e, decode c = .error e)

/-- R74, over the fields of the word as numbers. -/
def Obligations.DecodeFollowsTheFieldTests : Prop :=
  ∀ c : CmdWord,
    let op := c.toNat / 4096
    let rsv := c.toNat / 256 % 16
    let data := c.toNat % 256
    (rsv ≠ 0 → ∃ e, decode c = .error e) ∧
    (rsv = 0 → op = 0 → data = 0 → decode c = .ok .nop) ∧
    (rsv = 0 → op = 1 → data = 0 → decode c = .ok .init) ∧
    (rsv = 0 → op = 2 → decode c = .ok (.absorb (BitVec.ofNat 8 data))) ∧
    (rsv = 0 → op = 3 → data = 0 → decode c = .ok .final) ∧
    (rsv = 0 → op ≠ 2 → ¬(op < 4 ∧ data = 0) → ∃ e, decode c = .error e)

/-- R71: a word is the command whose row it matches under the row's mask, and every other word is illegal. -/
def Obligations.DecodeMatchesTheOpcodeMap : Prop :=
  ∀ c : CmdWord,
    (c &&& 0xFFFF#16 = 0x0000#16 ↔ decode c = .ok .nop) ∧
    (c &&& 0xFFFF#16 = 0x1000#16 ↔ decode c = .ok .init) ∧
    (c &&& 0xFF00#16 = 0x2000#16 ↔ decode c = .ok (.absorb (c.extractLsb' 0 8))) ∧
    (c &&& 0xFFFF#16 = 0x3000#16 ↔ decode c = .ok .final) ∧
    (c &&& 0xFFFF#16 ≠ 0x0000#16 → c &&& 0xFFFF#16 ≠ 0x1000#16 → c &&& 0xFF00#16 ≠ 0x2000#16 →
      c &&& 0xFFFF#16 ≠ 0x3000#16 → ∃ e, decode c = .error e) ∧
    (0x4000#16 ≤ c → ∃ e, decode c = .error e)

/-- R73: which words are illegal, and how many words are legal: 259 of the 65536. -/
def Obligations.IllegalWordsAreTheReservedOnes : Prop :=
  (∀ c : CmdWord, (∃ e, decode c = .error e) ↔
    (0x4 ≤ c.toNat / 4096 ∨ c.toNat / 256 % 16 ≠ 0 ∨
      ((c.toNat / 4096 = 0x0 ∨ c.toNat / 4096 = 0x1 ∨ c.toNat / 4096 = 0x3) ∧ c.toNat % 256 ≠ 0))) ∧
  (∃ legal : List CmdWord, legal.Nodup ∧ legal.length = 259 ∧ (∀ c, c ∈ legal ↔ ∃ i, decode c = .ok i))

/-- Decoding the word of a well-formed instruction gives the instruction back, with every operand. -/
def Obligations.DecodeOfEncodeIsTheInstruction : Prop :=
  ∀ i : Instr, i.wf = true → decode (encode i) = .ok i

/-- Each instruction has one word: the word it was decoded from is its encoding. -/
def Obligations.EncodeOfDecodeIsTheWord : Prop :=
  ∀ (c : CmdWord) (i : Instr), decode c = .ok i → encode i = c

/-- R75: each assembler command assembles to the word the rule gives; an operand that is no byte assembles to none. -/
def Obligations.AssembleGivesTheWords : Prop :=
  assemble .nop = some 0x0000 ∧ assemble .init = some 0x1000 ∧ assemble .final = some 0x3000 ∧
  (∀ n : Nat, n ≤ 255 → assemble (.absorb (.number n)) = some (BitVec.ofNat 16 (0x2000 + n))) ∧
  (∀ n : Nat, 255 < n → assemble (.absorb (.number n)) = none) ∧
  (∀ c : Char, c.toNat < 128 → assemble (.absorb (.char c)) = some (BitVec.ofNat 16 (0x2000 + c.toNat)))

/-! ### One step (40_padder.md, R111) -/

/-- A step of a state whose host presents the word of an instruction is `exec` of that instruction, at the state
without that move. -/
def Obligations.StepRunsTheDecodedCommand : Prop :=
  ∀ (s : State) (c : CmdWord) (rest : List HostMove) (i : Instr),
    s.busy = none → s.moves = .command c :: rest → decode c = .ok i →
    step s = exec i (setMoves rest s)

/-- `withFetchWord` presents exactly the instruction of the word. -/
def Obligations.PresentedWordRunsNext : Prop :=
  ∀ (s : State) (w : Nat) (i : Instr), w < 2 ^ 16 → decode (BitVec.ofNat 16 w) = .ok i →
    decodeTableWord 16 w = some i ∧ step (s.withFetchWord 16 w) = exec i { s with busy := none }

/-- With no word presented and no command in flight a step changes nothing of the CORE (R235): an idle move or a WAIT
is over, and a read takes the byte of its address, with no side effect (R50, R55). The list of moves and the readings
are the model's own (log entries 4 and 18). -/
def Obligations.NothingPresentedChangesNothing : Prop :=
  (∀ s : State, s.busy = none → (∀ m ∈ s.moves.head?, m = .idle ∨ m = .wait) →
    step s = .next (setMoves s.moves.tail s)) ∧
  (∀ (s : State) (a : Byte) (rest : List HostMove), s.busy = none → s.moves = .read a :: rest →
    step s = .next { s with moves := rest, readings := s.readings ++ [rdRead a s] })

/-! ### The commands (40_padder.md, section 3) -/

/-- R105: NOP's encoding, its effect in every state (also with ERR = 1), and its illegal words. -/
def Obligations.NopChangesNothing : Prop :=
  decode 0x0000#16 = .ok .nop ∧ (∀ s : State, exec .nop s = .next s) ∧
  (∀ c : CmdWord, c.toNat / 4096 = 0 → c.toNat % 256 ≠ 0 → ∃ e, decode c = .error e)

/-- R104: INIT's encoding, its writes and what it leaves unchanged, in both phases; twice is once; at reset it changes
nothing (R233); its illegal words. The equations are of whole states: that INIT leaves the hidden `W`, `a..h`, `RND`
alone is the model's choice (R29 leaves them unspecified; log entry 2), and the draw counter, the moves and the readings
are the model's own (log entries 3, 4 and 18). -/
def Obligations.InitStartsAMessage : Prop :=
  decode 0x1000#16 = .ok .init ∧
  (∀ s : State, s.err = false →
    exec .init s = .next { s with len := 0, fill := 0, done := false, h := IV }) ∧
  (∀ s t : State, exec .init s = .next t → exec .init t = .next t) ∧
  exec .init State.reset = .next State.reset ∧
  (∀ c : CmdWord, c.toNat / 4096 = 1 → c.toNat % 256 ≠ 0 ∨ c.toNat / 256 % 16 ≠ 0 → ∃ e, decode c = .error e)

/-- R106: ABSORB's encoding, its two faults in their order, its effect when the byte does not fill the block, and
its effect when it does. The first three are equations of whole states: that an ABSORB that fills no block leaves the
hidden `W`, `a..h`, `RND` alone is the model's choice (R29 leaves them unspecified; log entry 2), and the draw counter,
the moves and the readings are the model's own (log entries 3, 4 and 18). After a block step the hidden state is free
(log entry 2) and not spoken of. -/
def Obligations.AbsorbAppendsAByte : Prop :=
  ∀ d : Byte,
    decode (0x2000#16 + d.zeroExtend 16) = .ok (.absorb d) ∧
    (∀ s : State, s.err = false → s.done = true →
      exec (.absorb d) s = .next { s with err := true, cause := .protocol }) ∧
    (∀ s : State, s.err = false → s.done = false → s.len.toNat = 2 ^ 61 - 1 →
      exec (.absorb d) s = .next { s with err := true, cause := .lenOverflow }) ∧
    (∀ s : State, s.err = false → s.done = false → s.len.toNat ≠ 2 ^ 61 - 1 → s.fill ≠ 63 →
      exec (.absorb d) s = .next
        { s with buf := s.buf.set s.fill.toNat d s.fill.isLt, len := s.len + 1, fill := s.fill + 1 }) ∧
    (∀ s : State, s.err = false → s.done = false → s.len.toNat ≠ 2 ^ 61 - 1 → s.fill = 63 →
      ∃ t, exec (.absorb d) s = .next t ∧
        t.registers = { s.registers with
          buf := s.buf.set 63 d, len := s.len + 1, fill := 0, h := blockStep s.h (s.buf.set 63 d) } ∧
        t.busy = s.busy ∧ t.moves = s.moves)

/-- R107: FINAL's encoding, its fault, its effect with one tail block and with two, the blocks written out from
R108. The hidden state is free afterwards (log entry 2) and not spoken of. -/
def Obligations.FinalFinishesTheMessage : Prop :=
  decode 0x3000#16 = .ok .final ∧
  (∀ s : State, s.err = false → s.done = true →
    exec .final s = .next { s with err := true, cause := .protocol }) ∧
  (∀ s : State, s.err = false → s.done = false → s.fill.toNat ≤ 55 →
    let tail := s.buf.toList.take s.fill.toNat
    let b := blockOf (tail ++ [0x80] ++ List.replicate (55 - s.fill.toNat) 0x00 ++ be64Bytes (8 * s.len))
    ∃ t, exec .final s = .next t ∧
      t.registers = { s.registers with
        done := true, fill := 0, buf := b, h := blockStep s.h b, digest := serialize (blockStep s.h b) } ∧
      t.busy = s.busy ∧ t.moves = s.moves) ∧
  (∀ s : State, s.err = false → s.done = false → 56 ≤ s.fill.toNat →
    let tail := s.buf.toList.take s.fill.toNat
    let b0 := blockOf (tail ++ [0x80] ++ List.replicate (63 - s.fill.toNat) 0x00)
    let b1 := blockOf (List.replicate 56 0x00 ++ be64Bytes (8 * s.len))
    let h2 := blockStep (blockStep s.h b0) b1
    ∃ t, exec .final s = .next t ∧
      t.registers = { s.registers with done := true, fill := 0, buf := b1, h := h2, digest := serialize h2 } ∧
      t.busy = s.busy ∧ t.moves = s.moves)

/-! ### Frames -/

/-- INIT leaves ERR, CAUSE, BUF, DIGEST and BUSY alone (R104), and every read-space byte but STATUS, FILL and LEN; with
ERR = 1 it leaves everything alone (R217). That it leaves the hidden `W`, `a..h`, `RND` alone is the model's choice (R29
leaves them unspecified; log entry 2), and the draw counter, the moves and the readings are the model's own (log entries
3, 4 and 18). -/
def Obligations.FrameOfInit : Prop :=
  ∀ s t : State, exec .init s = .next t →
    t.err = s.err ∧ t.cause = s.cause ∧ t.buf = s.buf ∧ t.digest = s.digest ∧ t.busy = s.busy ∧
    t.w = s.w ∧ t.vars = s.vars ∧ t.rnd = s.rnd ∧ t.draw = s.draw ∧ t.moves = s.moves ∧ t.readings = s.readings ∧
    (s.err = true → t = s) ∧
    (s.busy = none → ∀ a : Byte, a ≠ 0x00 → a ≠ 0x02 → ¬(0x08 ≤ a ∧ a ≤ 0x0F) → rdRead a t = rdRead a s)

/-- ABSORB leaves DONE, DIGEST, BUSY alone, every byte of BUF but the one at FILL, H unless the block is filled, ERR
and CAUSE unless it faults, and every read-space byte but STATUS, CAUSE, FILL and LEN (R106). That an ABSORB that fills
no block leaves the hidden `W`, `a..h`, `RND` alone is the model's choice (R29 leaves them unspecified; log entry 2),
and the draw counter, the moves and the readings are the model's own (log entries 3, 4 and 18). -/
def Obligations.FrameOfAbsorb : Prop :=
  ∀ (d : Byte) (s t : State), exec (.absorb d) s = .next t →
    t.done = s.done ∧ t.digest = s.digest ∧ t.busy = s.busy ∧ t.moves = s.moves ∧ t.readings = s.readings ∧
    (∀ p (hp : p < 64), p ≠ s.fill.toNat → t.buf[p] = s.buf[p]) ∧
    (s.fill ≠ 63 → t.h = s.h ∧ t.w = s.w ∧ t.vars = s.vars ∧ t.rnd = s.rnd ∧ t.draw = s.draw) ∧
    (commandFault (.absorb d) s = none → t.err = s.err ∧ t.cause = s.cause) ∧
    (t.err = true → t.buf = s.buf ∧ t.len = s.len ∧ t.fill = s.fill ∧ t.h = s.h) ∧
    (s.busy = none → ∀ a : Byte, 0x02 < a → ¬(0x08 ≤ a ∧ a ≤ 0x0F) → rdRead a t = rdRead a s)

/-- FINAL leaves LEN and BUSY alone, ERR and CAUSE unless it faults, and every read-space byte but STATUS, CAUSE,
FILL, DIGEST and HEX (R107); when it faults or is ignored it leaves DIGEST, BUF, H, FILL and DONE alone too (R212, R217).
That it then leaves the hidden `W`, `a..h`, `RND` alone is the model's choice (R29 leaves them unspecified; log entry 2),
and the draw counter, the moves and the readings are the model's own (log entries 3, 4 and 18). -/
def Obligations.FrameOfFinal : Prop :=
  ∀ s t : State, exec .final s = .next t →
    t.len = s.len ∧ t.busy = s.busy ∧ t.moves = s.moves ∧ t.readings = s.readings ∧
    (commandFault .final s = none → t.err = s.err ∧ t.cause = s.cause) ∧
    (t.err = true → t.digest = s.digest ∧ t.buf = s.buf ∧ t.h = s.h ∧ t.fill = s.fill ∧ t.done = s.done ∧
      t.w = s.w ∧ t.vars = s.vars ∧ t.rnd = s.rnd ∧ t.draw = s.draw) ∧
    (s.busy = none → ∀ a : Byte, 0x02 < a → ¬(0x20 ≤ a ∧ a ≤ 0x7F) → rdRead a t = rdRead a s)

/-- R32, R191: a step changes DIGEST only when it runs FINAL or is a reset. -/
def Obligations.DigestChangesOnlyAtFinalOrReset : Prop :=
  ∀ s t : State, step s = .next t → t.digest ≠ s.digest → s.Runs .final ∨ s.moves.head? = some .reset

/-- R23: a step changes DONE only when it runs INIT or FINAL or is a reset; INIT clears it and FINAL sets it. -/
def Obligations.DoneChangesOnlyAtInitFinalOrReset : Prop :=
  ∀ s t : State, step s = .next t → t.done ≠ s.done →
    (s.Runs .init ∧ t.done = false) ∨ (s.Runs .final ∧ t.done = true) ∨
    (s.moves.head? = some .reset ∧ t.done = false)

/-- R26: a step changes LEN only by one more when it runs ABSORB, or to 0 when it runs INIT or is a reset. -/
def Obligations.LenCountsTheAbsorbedBytes : Prop :=
  ∀ s t : State, step s = .next t → t.len ≠ s.len →
    (∃ d, s.Runs (.absorb d) ∧ t.len = s.len + 1) ∨ (s.Runs .init ∧ t.len = 0) ∨
    (s.moves.head? = some .reset ∧ t.len = 0)

/-- R29, R232: two states that agree on everything but the hidden `W`, `a..h`, `RND` and the draw counter have steps
that agree on everything but these, the bytes the host reads included. -/
def Obligations.HiddenStateNeverReachesTheVisible : Prop :=
  ∀ s s' t : State, s.registers = s'.registers → s.busy = s'.busy → s.moves = s'.moves → s.readings = s'.readings →
    step s = .next t →
    ∃ t', step s' = .next t' ∧ t'.registers = t.registers ∧ t'.busy = t.busy ∧ t'.moves = t.moves ∧
      t'.readings = t.readings ∧
      (t.busy = none → ∀ a : Byte, rdRead a t' = rdRead a t)

/-! ### Faults (60_exceptions.md) -/

/-- R213: ABSORB at `LEN = L_MAX` faults and absorbs nothing; a message of exactly `L_MAX` bytes is accepted, and its
length field is `FF FF FF FF FF FF FF F8` (the last two are the spec's own inference in R213, "A message of exactly
2^61 − 1 bytes is accepted and FINAL pads it with the bit length ..."). -/
def Obligations.LengthOverflowIsRefused : Prop :=
  (∀ (d : Byte) (s : State), s.err = false → s.done = false → s.len.toNat = 2 ^ 61 - 1 →
    exec (.absorb d) s = .next { s with err := true, cause := .lenOverflow }) ∧
  (∀ (d : Byte) (s : State), s.err = false → s.done = false → s.len.toNat = 2 ^ 61 - 2 →
    ∃ t, exec (.absorb d) s = .next t ∧ t.err = false ∧ t.len.toNat = 2 ^ 61 - 1) ∧
  (∀ s : State, s.err = false → s.done = false → s.len.toNat = 2 ^ 61 - 1 →
    ∃ t, exec .final s = .next t ∧ t.err = false ∧ t.done = true ∧
      t.buf.toList.drop 56 = [0xFF, 0xFF, 0xFF, 0xFF, 0xFF, 0xFF, 0xFF, 0xF8])

/-- R214: an accepted illegal word raises ILLEGAL, in either phase; nothing else changes (R212). -/
def Obligations.IllegalWordRaisesTheFault : Prop :=
  ∀ (s : State) (c : CmdWord) (rest : List HostMove) (e : Illegal),
    s.busy = none → s.err = false → s.moves = .command c :: rest → decode c = .error e →
    step s = .next { s with moves := rest, err := true, cause := .illegal }

/-- R215: with DONE = 1, ABSORB and FINAL raise PROTOCOL; INIT and NOP are legal. -/
def Obligations.FinishedMessageIsProtected : Prop :=
  ∀ s : State, s.err = false → s.done = true →
    (∀ d : Byte, exec (.absorb d) s = .next { s with err := true, cause := .protocol }) ∧
    exec .final s = .next { s with err := true, cause := .protocol } ∧
    (∃ t, exec .init s = .next t ∧ t.err = false) ∧
    (∃ t, exec .nop s = .next t ∧ t.err = false)

/-- R216: the first of the four conditions that holds decides. -/
def Obligations.FaultPriority : Prop :=
  ∀ (s : State) (c : CmdWord) (rest : List HostMove), s.busy = none → s.moves = .command c :: rest →
    ∃ t, step s = .next t ∧
      (s.err = true → t.err = true ∧ t.cause = s.cause) ∧
      (s.err = false → (∃ e, decode c = .error e) → t.err = true ∧ t.cause = .illegal) ∧
      (s.err = false → ((∃ d, decode c = .ok (.absorb d)) ∨ decode c = .ok .final) → s.done = true →
        t.err = true ∧ t.cause = .protocol) ∧
      (s.err = false → (∃ d, decode c = .ok (.absorb d)) → s.done = false → s.len = lMax →
        t.err = true ∧ t.cause = .lenOverflow) ∧
      (s.err = false → (∃ i, decode c = .ok i ∧ commandFault i s = none) → t.err = false ∧ t.cause = s.cause)

/-- R212: the step that raises a fault writes ERR and CAUSE and no other register. That it leaves the hidden `W`,
`a..h`, `RND` alone is the model's choice: R212 does not name them and R29 leaves them unspecified (log entry 2). -/
def Obligations.FaultsArePrecise : Prop :=
  ∀ s t : State, s.err = false → step s = .next t → t.err = true →
    t.cause ≠ .none ∧ t.registers = { s.registers with err := true, cause := t.cause } ∧
    t.w = s.w ∧ t.vars = s.vars ∧ t.rnd = s.rnd

/-- R217: while ERR = 1 every accepted word, legal or not, has no effect, and the handshake completes in one cycle. -/
def Obligations.WordsAreIgnoredAfterAFault : Prop :=
  ∀ (tm : Timing) (s : State) (c : CmdWord) (rest : List HostMove),
    s.err = true → s.busy = none → s.moves = .command c :: rest →
    step s = .next (setMoves rest s) ∧ edge tm s = .next (setMoves rest s) ∧
    (rest.head? ≠ some .reset → cmdReady (setMoves rest s) = true)

/-- R218: ERR and CAUSE are cleared by a reset only, in the transaction and in the clocked machine. -/
def Obligations.OnlyResetClearsTheError : Prop :=
  (∀ s t : State, s.err = true → step s = .next t → s.moves.head? ≠ some .reset →
    t.err = true ∧ t.cause = s.cause) ∧
  (∀ (tm : Timing) (s t : State), s.err = true → edge tm s = .next t → s.moves.head? ≠ some .reset →
    t.err = true ∧ t.cause = s.cause)

/-- Every instruction runs to a next state from every state, and no step and no edge of the machine ever stops. -/
def Obligations.TheMachineNeverStops : Prop :=
  (∀ (i : Instr) (s : State), ∃ t, exec i s = .next t) ∧
  (∀ s : State, ∃ t, step s = .next t) ∧
  (∀ (tm : Timing) (s : State), ∃ t, edge tm s = .next t)

/-! ### Reset (70_reset_and_hazards.md) -/

/-- R231: the reset state, its read port and its outputs. The hidden state is not spoken of (log entry 1). -/
def Obligations.ResetStateIsAsListed : Prop :=
  State.reset.isBusy = false ∧ State.reset.done = false ∧ State.reset.err = false ∧
  State.reset.cause.code = 0 ∧ State.reset.len = 0 ∧ State.reset.fill = 0 ∧
  (∀ p (hp : p < 64), State.reset.buf[p] = 0x00) ∧
  State.reset.h = IV ∧
  (∀ p (hp : p < 32), State.reset.digest[p] = 0x00) ∧
  (∀ p (hp : p < 64), (hexView State.reset.digest)[p] = 0x30) ∧
  (∀ a : Byte, ¬(0x40 ≤ a ∧ a ≤ 0x7F) → rdRead a State.reset = 0x00) ∧
  cmdReady State.reset = true ∧ donePin State.reset = false ∧ errPin State.reset = false

/-- R230: a reset edge puts the registers in the reset state whatever the CORE was doing, abandons a command in
flight, and accepts no word; `cmd_ready` is 0 there. -/
def Obligations.ResetEdgeTakesTheResetState : Prop :=
  ∀ (tm : Timing) (s : State) (rest : List HostMove), s.moves = .reset :: rest →
    cmdReady s = false ∧
    ∃ t, step s = .next t ∧ edge tm s = .next t ∧
      t.registers = State.reset.registers ∧ t.busy = none ∧ t.moves = rest

/-- R233: reset leaves the state INIT produces with ERR, CAUSE, BUF and DIGEST at 0 as well; an INIT there changes
nothing. -/
def Obligations.ResetIsTheStateOfInit : Prop :=
  exec .init State.reset = .next State.reset ∧
  (∀ s t : State, s.err = false → exec .init s = .next t →
    State.reset.registers = { t.registers with
      err := false, cause := .none, buf := Vector.replicate 64 0x00, digest := Vector.replicate 32 0x00 })

/-! ### The read port (20_memory.md) -/

/-- R55, R57, with BUSY = 0: every address of the map, in the fields of the rule; CAUSE reads the code of R25 and
R211. -/
def Obligations.ReadPortMap : Prop :=
  ∀ s : State, s.busy = none →
    (rdRead 0x00 s).toNat = 4 * s.err.toNat + 2 * s.done.toNat ∧
    (s.cause = .none → rdRead 0x01 s = 0x00) ∧ (s.cause = .illegal → rdRead 0x01 s = 0x01) ∧
    (s.cause = .protocol → rdRead 0x01 s = 0x02) ∧ (s.cause = .lenOverflow → rdRead 0x01 s = 0x03) ∧
    (rdRead 0x02 s).toNat = s.fill.toNat ∧
    (∀ j, j < 8 → (rdRead (BitVec.ofNat 8 (0x08 + j)) s).toNat = s.len.toNat / 2 ^ (56 - 8 * j) % 256) ∧
    (∀ i (hi : i < 32), rdRead (BitVec.ofNat 8 (0x20 + i)) s = s.digest[i]) ∧
    (∀ j (hj : j < 64), rdRead (BitVec.ofNat 8 (0x40 + j)) s = (hexView s.digest)[j]) ∧
    (∀ a : Byte, (0x03 ≤ a ∧ a ≤ 0x07) ∨ (0x10 ≤ a ∧ a ≤ 0x1F) ∨ 0x80 ≤ a → rdRead a s = 0x00)

/-- R34, R40, R235, R238: STATUS reads in every state, also while BUSY = 1; its bits 7:3 read 0. The outputs `done` and
`err` are DONE and ERR in every state, and `cmd_ready` is 1 exactly when BUSY = 0 and no reset is asserted. -/
def Obligations.StatusReadsAtAnyTime : Prop :=
  ∀ s : State,
    (rdRead 0x00 s).getLsbD 0 = s.busy.isSome ∧ (rdRead 0x00 s).getLsbD 1 = s.done ∧
    (rdRead 0x00 s).getLsbD 2 = s.err ∧ (∀ b, 3 ≤ b → (rdRead 0x00 s).getLsbD b = false) ∧
    donePin s = s.done ∧ errPin s = s.err ∧
    (cmdReady s = true ↔ s.busy = none ∧ s.moves.head? ≠ some .reset)

/-- R37: the eight LEN bytes in order are LEN, most significant first; with `LEN ≤ L_MAX` the first is at most
0x1F. -/
def Obligations.LenReadsBigEndian : Prop :=
  ∀ s : State, s.busy = none →
    rdRead 0x08 s ++ rdRead 0x09 s ++ rdRead 0x0A s ++ rdRead 0x0B s ++
      rdRead 0x0C s ++ rdRead 0x0D s ++ rdRead 0x0E s ++ rdRead 0x0F s = s.len ∧
    (s.len ≤ lMax → rdRead 0x08 s ≤ 0x1F)

/-- R192, R193: the characters of HEX are the lowercase hexadecimal digits of DIGEST, the high nibble first. -/
def Obligations.HexIsTheLowercaseDigest : Prop :=
  (∀ (digest : Vector Byte 32) (i : Nat) (hi : i < 32),
    let hiNibble := digest[i].toNat / 16
    let loNibble := digest[i].toNat % 16
    ((hexView digest)[2 * i]).toNat = (if hiNibble ≤ 9 then 0x30 + hiNibble else 0x61 + (hiNibble - 10)) ∧
    ((hexView digest)[2 * i + 1]).toNat = (if loNibble ≤ 9 then 0x30 + loNibble else 0x61 + (loNibble - 10))) ∧
  (∀ (digest : Vector Byte 32) (j : Nat) (hj : j < 64),
    let n := ((hexView digest)[j]).toNat
    (0x30 ≤ n ∧ n ≤ 0x39) ∨ (0x61 ≤ n ∧ n ≤ 0x66))

/-- R239: the digest is a result exactly when STATUS reads BUSY = 0, DONE = 1, ERR = 0, which is the byte 0x02. -/
def Obligations.ResultValidIsStatusTwo : Prop :=
  ∀ s : State, s.resultValid = true ↔ rdRead 0x00 s = 0x02

/-! ### The scheduler (41_scheduler.md) -/

/-- R10: a rotation moves each bit; the rule's own formula. -/
def Obligations.RotationMovesEachBit : Prop :=
  ∀ (x : Word) (n i : Nat), 0 < n → n < 32 → i < 32 →
    rotr x n = (x >>> n) ||| (x <<< (32 - n)) ∧ (rotr x n).getLsbD i = x.getLsbD ((i + n) % 32)

/-- R142, R143, R162, R164, bit by bit. -/
def Obligations.SigmasBitByBit : Prop :=
  ∀ (x : Word) (i : Nat), i < 32 →
    (sigma0 x).getLsbD i = ((x.getLsbD ((i + 7) % 32) ^^ x.getLsbD ((i + 18) % 32)) ^^ x.getLsbD (i + 3)) ∧
    (sigma1 x).getLsbD i = ((x.getLsbD ((i + 17) % 32) ^^ x.getLsbD ((i + 19) % 32)) ^^ x.getLsbD (i + 10)) ∧
    (bigSigma1 x).getLsbD i =
      ((x.getLsbD ((i + 6) % 32) ^^ x.getLsbD ((i + 11) % 32)) ^^ x.getLsbD ((i + 25) % 32)) ∧
    (bigSigma0 x).getLsbD i =
      ((x.getLsbD ((i + 2) % 32) ^^ x.getLsbD ((i + 13) % 32)) ^^ x.getLsbD ((i + 22) % 32))

/-- R141, R144: every word of the schedule, from the block's bytes as numbers and from the earlier words. -/
def Obligations.ScheduleRecurrence : Prop :=
  ∀ blk : Block,
    (∀ t (ht : t < 16), ((schedule blk)[t]).toNat =
      blk[4 * t].toNat * 2 ^ 24 + blk[4 * t + 1].toNat * 2 ^ 16 + blk[4 * t + 2].toNat * 2 ^ 8 +
        blk[4 * t + 3].toNat) ∧
    (∀ i (_ : 16 ≤ i) (hi : i < 64), (schedule blk)[i] =
      (schedule blk)[i - 16] + sigma0 (schedule blk)[i - 15] + (schedule blk)[i - 7] +
        sigma1 (schedule blk)[i - 2])

/-! ### The compressor (42_compressor.md) -/

/-- R163, R165: each result bit of Ch is chosen by the bit of `e`, and each result bit of Maj is the majority. -/
def Obligations.ChooseAndMajorityBitByBit : Prop :=
  (∀ (e f g : Word) (i : Nat), i < 32 →
    (ch e f g).getLsbD i = if e.getLsbD i then f.getLsbD i else g.getLsbD i) ∧
  (∀ (a b c : Word) (i : Nat), i < 32 →
    ((maj a b c).getLsbD i = true ↔
      2 ≤ (a.getLsbD i).toNat + (b.getLsbD i).toNat + (c.getLsbD i).toNat))

/-- R166, R167, R168: compression runs 64 rounds from the block-entry state, each writing the eight variables at once
from their values before it, and adds the last ones to the block-entry state. -/
def Obligations.CompressRunsSixtyFourRounds : Prop :=
  ∀ (hin : HashState) (w : Vector Word 64), ∃ v : Nat → WorkVars,
    v 0 = ⟨hin[0], hin[1], hin[2], hin[3], hin[4], hin[5], hin[6], hin[7]⟩ ∧
    (∀ i (hi : i < 64),
      let t1 := (v i).h + bigSigma1 (v i).e + ch (v i).e (v i).f (v i).g + K[i] + w[i]
      let t2 := bigSigma0 (v i).a + maj (v i).a (v i).b (v i).c
      v (i + 1) = ⟨t1 + t2, (v i).a, (v i).b, (v i).c, (v i).d + t1, (v i).e, (v i).f, (v i).g⟩) ∧
    compress hin w = #v[hin[0] + (v 64).a, hin[1] + (v 64).b, hin[2] + (v 64).c, hin[3] + (v 64).d,
      hin[4] + (v 64).e, hin[5] + (v 64).f, hin[6] + (v 64).g, hin[7] + (v 64).h]

/-! ### The finalizer (43_finalizer.md) -/

/-- R190: byte `4i + j` of the digest is byte `j` of the word `i`, the most significant first. -/
def Obligations.SerializeIsBigEndian : Prop :=
  ∀ (h : HashState) (i j : Nat) (hi : i < 8) (hj : j < 4),
    ((serialize h)[4 * i + j]).toNat = h[i].toNat / 2 ^ (24 - 8 * j) % 256

/-! ### The padding contract (40_padder.md, section 1) -/

/-- R100: the clauses of the contract: the message, the marker, the zero bytes, the bit length as a big-endian number,
a length that is a multiple of 64 and the least that holds all this; `k` is `(55 - L) mod 64`. -/
def Obligations.PadMeetsTheContract : Prop :=
  ∀ m : List Byte, m.length ≤ 2 ^ 61 - 1 →
    m <+: pad m ∧
    (pad m)[m.length]? = some 0x80 ∧
    (∀ p, m.length < p → p < (pad m).length - 8 → (pad m)[p]? = some 0x00) ∧
    (pad m).drop ((pad m).length - 8) = be64Bytes (BitVec.ofNat 64 (8 * m.length)) ∧
    ((pad m).drop ((pad m).length - 8)).foldl (fun acc b => acc * 256 + b.toNat) 0 = 8 * m.length ∧
    64 ∣ (pad m).length ∧ 0 < (pad m).length ∧
    (∀ n, 64 ∣ n → m.length + 9 ≤ n → (pad m).length ≤ n) ∧
    (zeroFill m.length ≤ 63 ∧ (zeroFill m.length : Int) = (55 - (m.length : Int)) % 64 ∧
      (m.length + 1 + zeroFill m.length) % 64 = 56)

/-- R101: the padded length and the block count (the nine example lengths are the spec's own inference there), and
which messages end in one tail block and which in two. -/
def Obligations.PaddedLengthAndBlockCount : Prop :=
  (∀ m : List Byte, (pad m).length = m.length + 9 + zeroFill m.length ∧
    (pad m).length = 64 * blockCount m.length ∧
    blockCount m.length = (m.length + 9 + 63) / 64 ∧ 1 ≤ blockCount m.length ∧
    blockCount m.length = m.length / 64 +
      (padTail (m.drop (64 * (m.length / 64))) (BitVec.ofNat 64 m.length)).toList.length ∧
    (m.length % 64 ≤ 55 ↔
      (padTail (m.drop (64 * (m.length / 64))) (BitVec.ofNat 64 m.length)).second = none)) ∧
  [0, 1, 55, 56, 57, 63, 64, 119, 120].map blockCount = [1, 1, 1, 2, 2, 2, 2, 2, 3]

/-- R109 (the spec's own inference from R100, R106, R107, R108), as an identity of PAD and PAD_TAIL: the full blocks of
the message and the tail blocks are, in order, the blocks of the padded message. -/
def Obligations.EmittedBlocksAreThePaddedMessage : Prop :=
  ∀ m : List Byte, m.length ≤ 2 ^ 61 - 1 →
    (List.range (blockCount m.length)).map (nthBlock (pad m)) =
      (List.range (m.length / 64)).map (nthBlock m) ++
        (padTail (m.drop (64 * (m.length / 64))) (BitVec.ofNat 64 m.length)).toList

/-- R194, R103: the digest of a message is the serialisation of `BLOCK_STEP*(IV, PAD(M))`. Its tables are those of
R160 and R161: `K[i]` is the first 32 bits of the fractional part of the cube root of the `i`-th prime, and `IV[i]` of
its square root (values the spec takes from general knowledge). The digest of "abc", as one big-endian number, is that
of 95_test_vectors.md, section 2.5. -/
def Obligations.DigestIsBlockStepStarOfPad : Prop :=
  (∀ m : List Byte, sha256 m = serialize (blockStepStar IV (pad m))) ∧
  (let primes := (List.range 312).filter fun n => 2 ≤ n ∧ ∀ d < n, 2 ≤ d → n % d ≠ 0
   primes.length = 64 ∧
   (∀ i (hi : i < 64), ∃ root : Nat,
    root ^ 3 ≤ primes.getD i 0 * 2 ^ 96 ∧ primes.getD i 0 * 2 ^ 96 < (root + 1) ^ 3 ∧
    K[i].toNat = root % 2 ^ 32) ∧
   (∀ i (hi : i < 8), ∃ root : Nat,
    root ^ 2 ≤ primes.getD i 0 * 2 ^ 64 ∧ primes.getD i 0 * 2 ^ 64 < (root + 1) ^ 2 ∧
    IV[i].toNat = root % 2 ^ 32)) ∧
  (sha256 [0x61, 0x62, 0x63]).toList.foldl (fun acc b => acc * 256 + b.toNat) 0 =
    0xba7816bf_8f01cfea_414140de_5dae2223_b00361a3_96177a9c_b410ff61_f20015ad

/-! ### Invariants -/

/-- The reset state meets the invariants and holds the empty message. -/
def Obligations.ResetMeetsTheInvariants : Prop :=
  State.reset.Inv ∧ State.reset.FlightInv ∧ Represents State.reset []

/-- Every step keeps the invariant of the registers (R25, R26, R27, R103). -/
def Obligations.StepKeepsTheRegisterInvariant : Prop :=
  ∀ s t : State, s.Inv → step s = .next t → t.Inv

/-- Every edge of the clocked machine keeps the invariant of the registers and the one of the command in flight. -/
def Obligations.EdgeKeepsTheInvariants : Prop :=
  ∀ (tm : Timing) (s t : State), s.Inv → s.FlightInv → edge tm s = .next t → t.Inv ∧ t.FlightInv

/-- R103 (the spec's own inference by induction on the commands): from a state that holds a message, every step leads
to a state that holds a message: the empty one after INIT or a reset, one byte more after an ABSORB that does not fault,
the same one after anything else. -/
def Obligations.StepKeepsTheMessageHistory : Prop :=
  ∀ (s t : State) (m : List Byte), Represents s m → step s = .next t →
    Represents t m ∨
    ((s.Runs .init ∨ s.moves.head? = some .reset) ∧ Represents t []) ∨
    (∃ d, s.Runs (.absorb d) ∧ s.err = false ∧ commandFault (.absorb d) s = none ∧ Represents t (m ++ [d]))

/-- R103 by command: ABSORB appends its byte to the message the state holds, and FINAL leaves its digest. -/
def Obligations.CommandsBuildAndFinishTheMessage : Prop :=
  ∀ (s : State) (m : List Byte), Represents s m → s.err = false → s.done = false →
    (∀ d : Byte, m.length < 2 ^ 61 - 1 →
      ∃ t, exec (.absorb d) s = .next t ∧ t.err = false ∧ t.done = false ∧ Represents t (m ++ [d])) ∧
    (∃ t, exec .final s = .next t ∧ t.err = false ∧ t.done = true ∧ Represents t m ∧ t.digest = sha256 m)

/-! ### Whole messages (43_finalizer.md, R194, R195) -/

/-- R76, R194, R195: `HASH_BYTES` on any message the CORE accepts, from any state with ERR = 0 and no command in flight,
leaves `DIGEST = SHA256(M)` and DONE = 1 (the last sentence of R194, the spec's own inference there), and the 32 bytes
the host reads at 0x20 to 0x3F are that digest, in order. `HASH_TEXT` on a text does the same with its UTF-8 bytes, and
the 64 bytes read at 0x40 to 0x7F are the digest's hexadecimal form. One move a step is the model's choice (log entries
4 and 18). -/
def Obligations.HashBytesGivesSha256 : Prop :=
  (∀ (s : State) (m : List Byte) (rest : List HostMove),
    s.busy = none → s.err = false → m.length ≤ 2 ^ 61 - 1 → s.moves = expandPseudo (.hashBytes m) ++ rest →
    ∃ t : State, Sys2Proof.core.run (m.length + 3 + 32) s = .next t ∧
      t.digest = sha256 m ∧ t.done = true ∧ t.err = false ∧ t.len.toNat = m.length ∧ t.fill = 0 ∧
      t.busy = none ∧ t.moves = rest ∧ t.readings = s.readings ++ (sha256 m).toList) ∧
  (∀ (s : State) (text : String) (rest : List HostMove),
    s.busy = none → s.err = false → (utf8Bytes text).length ≤ 2 ^ 61 - 1 →
    s.moves = expandPseudo (.hashText text) ++ rest →
    ∃ t : State, Sys2Proof.core.run ((utf8Bytes text).length + 3 + 64) s = .next t ∧
      t.digest = sha256 (utf8Bytes text) ∧ t.done = true ∧ t.err = false ∧ t.busy = none ∧ t.moves = rest ∧
      t.readings = s.readings ++ (hexView (sha256 (utf8Bytes text))).toList)

/-- R234: straight after reset a message is hashed without INIT. -/
def Obligations.HashStraightAfterReset : Prop :=
  ∀ (m : List Byte) (rest : List HostMove), m.length ≤ 2 ^ 61 - 1 →
    ∃ t : State,
      Sys2Proof.core.run (m.length + 1)
        { State.reset with moves := absorbMoves m ++ present .final :: rest } = .next t ∧
      t.digest = sha256 m ∧ t.done = true ∧ t.err = false ∧ t.moves = rest

/-- R3: the digest depends on the bytes of the message and on nothing else: two instances with any two histories
give the same one, in the registers and at every read address of DIGEST and HEX. -/
def Obligations.DigestDependsOnTheMessageOnly : Prop :=
  ∀ (s s' t t' : State) (m : List Byte) (rest rest' : List HostMove),
    s.busy = none → s'.busy = none → s.err = false → s'.err = false → m.length ≤ 2 ^ 61 - 1 →
    s.moves = hashMoves m ++ rest → s'.moves = hashMoves m ++ rest' →
    Sys2Proof.core.run (m.length + 3) s = .next t → Sys2Proof.core.run (m.length + 3) s' = .next t' →
    t.digest = t'.digest ∧ t.resultValid = true ∧ t'.resultValid = true ∧
    (∀ a : Byte, 0x20 ≤ a → a ≤ 0x7F → rdRead a t = rdRead a t')

/-! ### The clocked machine (70_reset_and_hazards.md) -/

/-- R235: while a command is in flight no presented word is accepted, and the host holds it. -/
def Obligations.NothingIsAcceptedWhileBusy : Prop :=
  ∀ (tm : Timing) (s t : State) (p : InFlight) (c : CmdWord) (rest : List HostMove),
    s.busy = some p → s.moves = .command c :: rest → edge tm s = .next t →
    cmdReady s = false ∧ t.moves = s.moves ∧
    (1 < p.cyclesLeft → t.registers = s.registers ∧ ∃ q, t.busy = some q ∧ q.instr = p.instr) ∧
    (p.cyclesLeft ≤ 1 → t.busy = none)

/-- R236: a command of one cycle completes at its acceptance edge: with all four parameters 1, an edge is a step. -/
def Obligations.OneCycleEdgeIsAStep : Prop :=
  ∀ s : State, s.busy = none →
    edge { tAccept := 1, tBlock := 1, tFinal1 := 1, tFinal2 := 1 } s = step s

/-- R236: a word that is illegal, ignored or a command that faults completes at its acceptance edge, whatever the
parameters. -/
def Obligations.FaultsTakeOneCycle : Prop :=
  ∀ (tm : Timing) (s : State) (c : CmdWord) (rest : List HostMove),
    s.busy = none → s.moves = .command c :: rest →
    (s.err = true ∨ (∃ e, decode c = .error e) ∨ ∃ i, decode c = .ok i ∧ (commandFault i s).isSome = true) →
    edge tm s = step s

/-- R236, R240, R242: a command takes the cycles its parameter says, one cycle if it is ignored or faults, and at most
the longest of the four; BUSY = 1 and no register changes until then; at the last edge it has exactly the effect of one
step of the transaction machine. That the acceptance edge is the first of these cycles, and that BUSY = 1 right after
it, are the model's reading of R236 (log entries 5 and 6). -/
def Obligations.ClockedCommandRefinesTheStep : Prop :=
  ∀ (tm : Timing) (s : State) (i : Instr) (rest : List HostMove),
    tm.wf = true → s.busy = none → s.moves = .command (encode i) :: rest → .reset ∉ rest →
    (s.err = true ∨ (∃ c, commandFault i s = some c) → latency tm i s = 1) ∧
    (s.err = false → commandFault i s = none →
      (i = .nop ∨ i = .init → latency tm i s = tm.tAccept) ∧
      (∀ d, i = .absorb d → s.fill ≠ 63 → latency tm i s = tm.tAccept) ∧
      (∀ d, i = .absorb d → s.fill = 63 → latency tm i s = tm.tBlock) ∧
      (i = .final → s.fill.toNat ≤ 55 → latency tm i s = tm.tFinal1) ∧
      (i = .final → 56 ≤ s.fill.toNat → latency tm i s = tm.tFinal2)) ∧
    1 ≤ latency tm i s ∧ latency tm i s ≤ longestCommand tm ∧
    (∃ t u : State, step s = .next t ∧ (clocked tm).run (latency tm i s) s = .next u ∧
      u.busy = none ∧ u.registers = t.registers) ∧
    (∀ k, 0 < k → k < latency tm i s →
      ∃ v : State, (clocked tm).run k s = .next v ∧ v.isBusy = true ∧ v.registers = s.registers)

/-- R242: the clocked machine hashes any message too, in a number of cycles linear in its length, for any timing
parameters, and the host reads the digest. One read an edge is the model's choice (log entry 18). -/
def Obligations.ClockedHashTerminates : Prop :=
  ∀ (tm : Timing) (s : State) (m : List Byte) (rest : List HostMove),
    tm.wf = true → s.busy = none → s.err = false → m.length ≤ 2 ^ 61 - 1 →
    s.moves = expandPseudo (.hashBytes m) ++ rest →
    ∃ (n : Nat) (t : State), n ≤ (m.length + 3) * longestCommand tm + 32 ∧ (clocked tm).run n s = .next t ∧
      t.busy = none ∧ t.done = true ∧ t.err = false ∧ t.digest = sha256 m ∧ t.moves = rest ∧
      t.readings = s.readings ++ (sha256 m).toList
end

