-- ==== Sys2Proof/Laws/State.lean ====
section
/-! SUPPORT. One lemma per field for each named update of the state, so that no proof unfolds an update. -/

namespace Sys2Proof.Machine

/-! ### raiseFault -/

@[simp] theorem raiseFault_busy (c : Cause) (s : State) : (raiseFault c s).busy = s.busy := rfl
@[simp] theorem raiseFault_done (c : Cause) (s : State) : (raiseFault c s).done = s.done := rfl
@[simp] theorem raiseFault_err (c : Cause) (s : State) : (raiseFault c s).err = true := rfl
@[simp] theorem raiseFault_cause (c : Cause) (s : State) : (raiseFault c s).cause = c := rfl
@[simp] theorem raiseFault_len (c : Cause) (s : State) : (raiseFault c s).len = s.len := rfl
@[simp] theorem raiseFault_fill (c : Cause) (s : State) : (raiseFault c s).fill = s.fill := rfl
@[simp] theorem raiseFault_buf (c : Cause) (s : State) : (raiseFault c s).buf = s.buf := rfl
@[simp] theorem raiseFault_w (c : Cause) (s : State) : (raiseFault c s).w = s.w := rfl
@[simp] theorem raiseFault_vars (c : Cause) (s : State) : (raiseFault c s).vars = s.vars := rfl
@[simp] theorem raiseFault_rnd (c : Cause) (s : State) : (raiseFault c s).rnd = s.rnd := rfl
@[simp] theorem raiseFault_h (c : Cause) (s : State) : (raiseFault c s).h = s.h := rfl
@[simp] theorem raiseFault_digest (c : Cause) (s : State) : (raiseFault c s).digest = s.digest := rfl
@[simp] theorem raiseFault_draw (c : Cause) (s : State) : (raiseFault c s).draw = s.draw := rfl
@[simp] theorem raiseFault_moves (c : Cause) (s : State) : (raiseFault c s).moves = s.moves := rfl
@[simp] theorem raiseFault_readings (c : Cause) (s : State) : (raiseFault c s).readings = s.readings := rfl

/-! ### redraw -/

@[simp] theorem redraw_busy (s : State) : (redraw s).busy = s.busy := rfl
@[simp] theorem redraw_done (s : State) : (redraw s).done = s.done := rfl
@[simp] theorem redraw_err (s : State) : (redraw s).err = s.err := rfl
@[simp] theorem redraw_cause (s : State) : (redraw s).cause = s.cause := rfl
@[simp] theorem redraw_len (s : State) : (redraw s).len = s.len := rfl
@[simp] theorem redraw_fill (s : State) : (redraw s).fill = s.fill := rfl
@[simp] theorem redraw_buf (s : State) : (redraw s).buf = s.buf := rfl
@[simp] theorem redraw_h (s : State) : (redraw s).h = s.h := rfl
@[simp] theorem redraw_digest (s : State) : (redraw s).digest = s.digest := rfl
@[simp] theorem redraw_draw (s : State) : (redraw s).draw = s.draw + 1 := rfl
@[simp] theorem redraw_moves (s : State) : (redraw s).moves = s.moves := rfl
@[simp] theorem redraw_readings (s : State) : (redraw s).readings = s.readings := rfl

/-! ### release -/

@[simp] theorem release_busy (s : State) : (release s).busy = none := rfl
@[simp] theorem release_done (s : State) : (release s).done = s.done := rfl
@[simp] theorem release_err (s : State) : (release s).err = s.err := rfl
@[simp] theorem release_cause (s : State) : (release s).cause = s.cause := rfl
@[simp] theorem release_len (s : State) : (release s).len = s.len := rfl
@[simp] theorem release_fill (s : State) : (release s).fill = s.fill := rfl
@[simp] theorem release_buf (s : State) : (release s).buf = s.buf := rfl
@[simp] theorem release_w (s : State) : (release s).w = s.w := rfl
@[simp] theorem release_vars (s : State) : (release s).vars = s.vars := rfl
@[simp] theorem release_rnd (s : State) : (release s).rnd = s.rnd := rfl
@[simp] theorem release_h (s : State) : (release s).h = s.h := rfl
@[simp] theorem release_digest (s : State) : (release s).digest = s.digest := rfl
@[simp] theorem release_draw (s : State) : (release s).draw = s.draw := rfl
@[simp] theorem release_moves (s : State) : (release s).moves = s.moves := rfl
@[simp] theorem release_readings (s : State) : (release s).readings = s.readings := rfl

/-! ### resetEdge -/

@[simp] theorem resetEdge_busy (s : State) : (resetEdge s).busy = none := rfl
@[simp] theorem resetEdge_done (s : State) : (resetEdge s).done = false := rfl
@[simp] theorem resetEdge_err (s : State) : (resetEdge s).err = false := rfl
@[simp] theorem resetEdge_cause (s : State) : (resetEdge s).cause = .none := rfl
@[simp] theorem resetEdge_len (s : State) : (resetEdge s).len = 0 := rfl
@[simp] theorem resetEdge_fill (s : State) : (resetEdge s).fill = 0 := rfl
@[simp] theorem resetEdge_buf (s : State) : (resetEdge s).buf = State.reset.buf := rfl
@[simp] theorem resetEdge_h (s : State) : (resetEdge s).h = IV := rfl
@[simp] theorem resetEdge_digest (s : State) : (resetEdge s).digest = State.reset.digest := rfl
@[simp] theorem resetEdge_draw (s : State) : (resetEdge s).draw = s.draw + 1 := rfl
@[simp] theorem resetEdge_moves (s : State) : (resetEdge s).moves = s.moves := rfl
@[simp] theorem resetEdge_readings (s : State) : (resetEdge s).readings = s.readings := rfl

/-! ### startMessage -/

@[simp] theorem startMessage_busy (s : State) : (startMessage s).busy = s.busy := rfl
@[simp] theorem startMessage_done (s : State) : (startMessage s).done = false := rfl
@[simp] theorem startMessage_err (s : State) : (startMessage s).err = s.err := rfl
@[simp] theorem startMessage_cause (s : State) : (startMessage s).cause = s.cause := rfl
@[simp] theorem startMessage_len (s : State) : (startMessage s).len = 0 := rfl
@[simp] theorem startMessage_fill (s : State) : (startMessage s).fill = 0 := rfl
@[simp] theorem startMessage_buf (s : State) : (startMessage s).buf = s.buf := rfl
@[simp] theorem startMessage_w (s : State) : (startMessage s).w = s.w := rfl
@[simp] theorem startMessage_vars (s : State) : (startMessage s).vars = s.vars := rfl
@[simp] theorem startMessage_rnd (s : State) : (startMessage s).rnd = s.rnd := rfl
@[simp] theorem startMessage_h (s : State) : (startMessage s).h = IV := rfl
@[simp] theorem startMessage_digest (s : State) : (startMessage s).digest = s.digest := rfl
@[simp] theorem startMessage_draw (s : State) : (startMessage s).draw = s.draw := rfl
@[simp] theorem startMessage_moves (s : State) : (startMessage s).moves = s.moves := rfl
@[simp] theorem startMessage_readings (s : State) : (startMessage s).readings = s.readings := rfl

/-! ### storeByte -/

@[simp] theorem storeByte_busy (d : Byte) (s : State) : (storeByte d s).busy = s.busy := rfl
@[simp] theorem storeByte_done (d : Byte) (s : State) : (storeByte d s).done = s.done := rfl
@[simp] theorem storeByte_err (d : Byte) (s : State) : (storeByte d s).err = s.err := rfl
@[simp] theorem storeByte_cause (d : Byte) (s : State) : (storeByte d s).cause = s.cause := rfl
@[simp] theorem storeByte_len (d : Byte) (s : State) : (storeByte d s).len = s.len + 1 := rfl
@[simp] theorem storeByte_fill (d : Byte) (s : State) : (storeByte d s).fill = s.fill + 1 := rfl
@[simp] theorem storeByte_buf (d : Byte) (s : State) : (storeByte d s).buf = bufWithByte s d := rfl
@[simp] theorem storeByte_w (d : Byte) (s : State) : (storeByte d s).w = s.w := rfl
@[simp] theorem storeByte_vars (d : Byte) (s : State) : (storeByte d s).vars = s.vars := rfl
@[simp] theorem storeByte_rnd (d : Byte) (s : State) : (storeByte d s).rnd = s.rnd := rfl
@[simp] theorem storeByte_h (d : Byte) (s : State) : (storeByte d s).h = s.h := rfl
@[simp] theorem storeByte_digest (d : Byte) (s : State) : (storeByte d s).digest = s.digest := rfl
@[simp] theorem storeByte_draw (d : Byte) (s : State) : (storeByte d s).draw = s.draw := rfl
@[simp] theorem storeByte_moves (d : Byte) (s : State) : (storeByte d s).moves = s.moves := rfl
@[simp] theorem storeByte_readings (d : Byte) (s : State) : (storeByte d s).readings = s.readings := rfl

/-! ### storeLastByte -/

@[simp] theorem storeLastByte_busy (d : Byte) (s : State) : (storeLastByte d s).busy = s.busy := rfl
@[simp] theorem storeLastByte_done (d : Byte) (s : State) : (storeLastByte d s).done = s.done := rfl
@[simp] theorem storeLastByte_err (d : Byte) (s : State) : (storeLastByte d s).err = s.err := rfl
@[simp] theorem storeLastByte_cause (d : Byte) (s : State) : (storeLastByte d s).cause = s.cause := rfl
@[simp] theorem storeLastByte_len (d : Byte) (s : State) : (storeLastByte d s).len = s.len + 1 := rfl
@[simp] theorem storeLastByte_fill (d : Byte) (s : State) : (storeLastByte d s).fill = 0 := rfl
@[simp] theorem storeLastByte_buf (d : Byte) (s : State) : (storeLastByte d s).buf = bufWithByte s d := rfl
@[simp] theorem storeLastByte_h (d : Byte) (s : State) : (storeLastByte d s).h = blockStep s.h (bufWithByte s d) := rfl
@[simp] theorem storeLastByte_digest (d : Byte) (s : State) : (storeLastByte d s).digest = s.digest := rfl
@[simp] theorem storeLastByte_draw (d : Byte) (s : State) : (storeLastByte d s).draw = s.draw + 1 := rfl
@[simp] theorem storeLastByte_moves (d : Byte) (s : State) : (storeLastByte d s).moves = s.moves := rfl
@[simp] theorem storeLastByte_readings (d : Byte) (s : State) : (storeLastByte d s).readings = s.readings := rfl

/-! ### finishMessage -/

@[simp] theorem finishMessage_busy (s : State) : (finishMessage s).busy = s.busy := rfl
@[simp] theorem finishMessage_done (s : State) : (finishMessage s).done = true := rfl
@[simp] theorem finishMessage_err (s : State) : (finishMessage s).err = s.err := rfl
@[simp] theorem finishMessage_cause (s : State) : (finishMessage s).cause = s.cause := rfl
@[simp] theorem finishMessage_len (s : State) : (finishMessage s).len = s.len := rfl
@[simp] theorem finishMessage_fill (s : State) : (finishMessage s).fill = 0 := rfl
@[simp] theorem finishMessage_buf (s : State) : (finishMessage s).buf = (padTail (tailBytes s) s.len).last := rfl
@[simp] theorem finishMessage_h (s : State) : (finishMessage s).h = compressTail s.h (padTail (tailBytes s) s.len) := rfl
@[simp] theorem finishMessage_digest (s : State) :
    (finishMessage s).digest = serialize (compressTail s.h (padTail (tailBytes s) s.len)) :=
  rfl
@[simp] theorem finishMessage_draw (s : State) : (finishMessage s).draw = s.draw + 1 := rfl
@[simp] theorem finishMessage_moves (s : State) : (finishMessage s).moves = s.moves := rfl
@[simp] theorem finishMessage_readings (s : State) : (finishMessage s).readings = s.readings := rfl

/-! ### setMoves -/

@[simp] theorem setMoves_busy (ms : List HostMove) (s : State) : (setMoves ms s).busy = s.busy := rfl
@[simp] theorem setMoves_done (ms : List HostMove) (s : State) : (setMoves ms s).done = s.done := rfl
@[simp] theorem setMoves_err (ms : List HostMove) (s : State) : (setMoves ms s).err = s.err := rfl
@[simp] theorem setMoves_cause (ms : List HostMove) (s : State) : (setMoves ms s).cause = s.cause := rfl
@[simp] theorem setMoves_len (ms : List HostMove) (s : State) : (setMoves ms s).len = s.len := rfl
@[simp] theorem setMoves_fill (ms : List HostMove) (s : State) : (setMoves ms s).fill = s.fill := rfl
@[simp] theorem setMoves_buf (ms : List HostMove) (s : State) : (setMoves ms s).buf = s.buf := rfl
@[simp] theorem setMoves_w (ms : List HostMove) (s : State) : (setMoves ms s).w = s.w := rfl
@[simp] theorem setMoves_vars (ms : List HostMove) (s : State) : (setMoves ms s).vars = s.vars := rfl
@[simp] theorem setMoves_rnd (ms : List HostMove) (s : State) : (setMoves ms s).rnd = s.rnd := rfl
@[simp] theorem setMoves_h (ms : List HostMove) (s : State) : (setMoves ms s).h = s.h := rfl
@[simp] theorem setMoves_digest (ms : List HostMove) (s : State) : (setMoves ms s).digest = s.digest := rfl
@[simp] theorem setMoves_draw (ms : List HostMove) (s : State) : (setMoves ms s).draw = s.draw := rfl
@[simp] theorem setMoves_moves (ms : List HostMove) (s : State) : (setMoves ms s).moves = ms := rfl
@[simp] theorem setMoves_readings (ms : List HostMove) (s : State) : (setMoves ms s).readings = s.readings := rfl

/-! ### occupy -/

@[simp] theorem occupy_busy (p : InFlight) (s : State) : (occupy p s).busy = some p := rfl
@[simp] theorem occupy_done (p : InFlight) (s : State) : (occupy p s).done = s.done := rfl
@[simp] theorem occupy_err (p : InFlight) (s : State) : (occupy p s).err = s.err := rfl
@[simp] theorem occupy_cause (p : InFlight) (s : State) : (occupy p s).cause = s.cause := rfl
@[simp] theorem occupy_len (p : InFlight) (s : State) : (occupy p s).len = s.len := rfl
@[simp] theorem occupy_fill (p : InFlight) (s : State) : (occupy p s).fill = s.fill := rfl
@[simp] theorem occupy_buf (p : InFlight) (s : State) : (occupy p s).buf = s.buf := rfl
@[simp] theorem occupy_w (p : InFlight) (s : State) : (occupy p s).w = s.w := rfl
@[simp] theorem occupy_vars (p : InFlight) (s : State) : (occupy p s).vars = s.vars := rfl
@[simp] theorem occupy_rnd (p : InFlight) (s : State) : (occupy p s).rnd = s.rnd := rfl
@[simp] theorem occupy_h (p : InFlight) (s : State) : (occupy p s).h = s.h := rfl
@[simp] theorem occupy_digest (p : InFlight) (s : State) : (occupy p s).digest = s.digest := rfl
@[simp] theorem occupy_draw (p : InFlight) (s : State) : (occupy p s).draw = s.draw := rfl
@[simp] theorem occupy_moves (p : InFlight) (s : State) : (occupy p s).moves = s.moves := rfl
@[simp] theorem occupy_readings (p : InFlight) (s : State) : (occupy p s).readings = s.readings := rfl

/-! ### takeReading -/

@[simp] theorem takeReading_busy (a : Byte) (s : State) : (takeReading a s).busy = s.busy := rfl
@[simp] theorem takeReading_done (a : Byte) (s : State) : (takeReading a s).done = s.done := rfl
@[simp] theorem takeReading_err (a : Byte) (s : State) : (takeReading a s).err = s.err := rfl
@[simp] theorem takeReading_cause (a : Byte) (s : State) : (takeReading a s).cause = s.cause := rfl
@[simp] theorem takeReading_len (a : Byte) (s : State) : (takeReading a s).len = s.len := rfl
@[simp] theorem takeReading_fill (a : Byte) (s : State) : (takeReading a s).fill = s.fill := rfl
@[simp] theorem takeReading_buf (a : Byte) (s : State) : (takeReading a s).buf = s.buf := rfl
@[simp] theorem takeReading_w (a : Byte) (s : State) : (takeReading a s).w = s.w := rfl
@[simp] theorem takeReading_vars (a : Byte) (s : State) : (takeReading a s).vars = s.vars := rfl
@[simp] theorem takeReading_rnd (a : Byte) (s : State) : (takeReading a s).rnd = s.rnd := rfl
@[simp] theorem takeReading_h (a : Byte) (s : State) : (takeReading a s).h = s.h := rfl
@[simp] theorem takeReading_digest (a : Byte) (s : State) : (takeReading a s).digest = s.digest := rfl
@[simp] theorem takeReading_draw (a : Byte) (s : State) : (takeReading a s).draw = s.draw := rfl
@[simp] theorem takeReading_moves (a : Byte) (s : State) : (takeReading a s).moves = s.moves := rfl
@[simp] theorem takeReading_readings (a : Byte) (s : State) :
    (takeReading a s).readings = s.readings ++ [rdRead a s] := rfl
@[simp] theorem takeReading_registers (a : Byte) (s : State) : (takeReading a s).registers = s.registers := rfl

/-! ### passEdge -/

@[simp] theorem passEdge_busy (s : State) : (passEdge s).busy = s.busy := by
  unfold passEdge; split <;> (try split) <;> rfl
@[simp] theorem passEdge_done (s : State) : (passEdge s).done = s.done := by
  unfold passEdge; split <;> (try split) <;> rfl
@[simp] theorem passEdge_err (s : State) : (passEdge s).err = s.err := by
  unfold passEdge; split <;> (try split) <;> rfl
@[simp] theorem passEdge_cause (s : State) : (passEdge s).cause = s.cause := by
  unfold passEdge; split <;> (try split) <;> rfl
@[simp] theorem passEdge_len (s : State) : (passEdge s).len = s.len := by
  unfold passEdge; split <;> (try split) <;> rfl
@[simp] theorem passEdge_fill (s : State) : (passEdge s).fill = s.fill := by
  unfold passEdge; split <;> (try split) <;> rfl
@[simp] theorem passEdge_buf (s : State) : (passEdge s).buf = s.buf := by
  unfold passEdge; split <;> (try split) <;> rfl
@[simp] theorem passEdge_w (s : State) : (passEdge s).w = s.w := by
  unfold passEdge; split <;> (try split) <;> rfl
@[simp] theorem passEdge_vars (s : State) : (passEdge s).vars = s.vars := by
  unfold passEdge; split <;> (try split) <;> rfl
@[simp] theorem passEdge_rnd (s : State) : (passEdge s).rnd = s.rnd := by
  unfold passEdge; split <;> (try split) <;> rfl
@[simp] theorem passEdge_h (s : State) : (passEdge s).h = s.h := by
  unfold passEdge; split <;> (try split) <;> rfl
@[simp] theorem passEdge_digest (s : State) : (passEdge s).digest = s.digest := by
  unfold passEdge; split <;> (try split) <;> rfl
@[simp] theorem passEdge_draw (s : State) : (passEdge s).draw = s.draw := by
  unfold passEdge; split <;> (try split) <;> rfl

/-- What an edge at which nothing is accepted does to the host's moves. -/
theorem passEdge_moves (s : State) :
    (passEdge s).moves = s.moves ∨ (passEdge s).moves = s.moves.tail ∧ ∀ c, s.moves.head? ≠ some (.command c) := by
  unfold passEdge
  split <;> rename_i h
  · exact .inr (by simp [h])
  · exact .inr (by simp [h])
  · split
    · exact .inl rfl
    · exact .inr (by simp [h])
  · exact .inl rfl

/-- What an edge at which nothing is accepted does to the host's readings: a read, and only a read, adds its byte. -/
theorem passEdge_readings (s : State) :
    (passEdge s).readings = s.readings ∧ (∀ a, s.moves.head? ≠ some (.read a)) ∨
    ∃ a rest, s.moves = .read a :: rest ∧ (passEdge s).readings = s.readings ++ [rdRead a s] := by
  unfold passEdge
  split <;> rename_i h
  · exact .inl ⟨rfl, by simp [h]⟩
  · exact .inr ⟨_, _, h, rfl⟩
  · refine .inl ⟨?_, by simp [h]⟩
    split <;> rfl
  · rename_i _ hread
    refine .inl ⟨rfl, fun a ha => ?_⟩
    obtain ⟨rest, hm⟩ : ∃ rest, s.moves = .read a :: rest := by
      cases hm : s.moves with
      | nil => simp [hm] at ha
      | cons m rest => exact ⟨rest, by simpa [hm] using ha⟩
    exact hread a rest hm

/-! ### registers -/

@[simp] theorem redraw_registers (s : State) : (redraw s).registers = s.registers := rfl
@[simp] theorem release_registers (s : State) : (release s).registers = s.registers := rfl
@[simp] theorem resetEdge_registers (s : State) : (resetEdge s).registers = State.reset.registers := rfl
@[simp] theorem passEdge_registers (s : State) : (passEdge s).registers = s.registers := by simp [State.registers]
@[simp] theorem setMoves_registers (ms : List HostMove) (s : State) : (setMoves ms s).registers = s.registers := rfl
@[simp] theorem occupy_registers (p : InFlight) (s : State) : (occupy p s).registers = s.registers := rfl
@[simp] theorem tick_registers (p : InFlight) (s : State) : (tick p s).registers = s.registers := by simp [tick]
@[simp] theorem tick_busy (p : InFlight) (s : State) :
    (tick p s).busy = some { p with cyclesLeft := p.cyclesLeft - 1 } := by simp [tick]

end Sys2Proof.Machine
end

