-- ==== Sys2Proof/Laws/Bytes.lean ====
section
/-! SUPPORT. Lengths and elements of the byte sequences and blocks (R11, R108, R190). -/

namespace Sys2Proof.Machine

@[simp] theorem be32Bytes_length (w : Word) : (be32Bytes w).length = 4 := rfl

@[simp] theorem be64Bytes_length (v : BitVec 64) : (be64Bytes v).length = 8 := rfl

@[simp] theorem serializeBytes_length (h : HashState) : (serializeBytes h).length = 32 := rfl

@[simp] theorem serialize_toList (h : HashState) : (serialize h).toList = serializeBytes h := rfl

/-- `be32` as a number: the first byte is the most significant (R11). -/
theorem be32_toNat (b0 b1 b2 b3 : Byte) :
    (be32 b0 b1 b2 b3).toNat = b0.toNat * 2 ^ 24 + b1.toNat * 2 ^ 16 + b2.toNat * 2 ^ 8 + b3.toNat := by
  have h : (be32 b0 b1 b2 b3).toNat = ((b0.toNat <<< 8 ||| b1.toNat) <<< 8 ||| b2.toNat) <<< 8 ||| b3.toNat := by
    unfold be32
    rw [BitVec.toNat_append, BitVec.toNat_append, BitVec.toNat_append]
  have := b1.isLt
  have := b2.isLt
  have := b3.isLt
  rw [h, ← Nat.shiftLeft_add_eq_or_of_lt ‹b1.toNat < _›, ← Nat.shiftLeft_add_eq_or_of_lt ‹b2.toNat < _›,
    ← Nat.shiftLeft_add_eq_or_of_lt ‹b3.toNat < _›]
  simp only [Nat.shiftLeft_eq]
  omega

/-- A block of a byte sequence holds the bytes of the sequence. -/
theorem blockOf_getElem (bytes : List Byte) (i : Nat) (hi : i < 64) : (blockOf bytes)[i] = bytes.getD i 0 := by
  simp [blockOf]

/-- A block of exactly 64 bytes is these bytes (R51: no byte is missing). -/
theorem blockOf_toList (bytes : List Byte) (h : bytes.length = 64) : (blockOf bytes).toList = bytes := by
  apply List.ext_getElem
  · simp [h]
  · intro i hi _
    rw [Vector.getElem_toList, blockOf_getElem _ _ (by simpa using hi)]
    simp [List.getD_eq_getElem?_getD, h, show i < 64 by simpa using hi]

/-- The block of the bytes of a block is the block. -/
theorem blockOf_toList_eq (b : Block) : blockOf b.toList = b := by
  apply Vector.ext
  intro i hi
  simp [blockOf_getElem _ _ hi, List.getD_eq_getElem?_getD, hi]

@[simp] theorem tailBytes_length (s : State) : (tailBytes s).length = s.fill.toNat := by
  have := s.fill.isLt
  simp [tailBytes]
  omega

/-- ABSORB's byte stands at the position FILL (R106). -/
theorem bufWithByte_at (s : State) (d : Byte) : (bufWithByte s d)[s.fill.toNat]'(s.fill.isLt) = d := by
  simp [bufWithByte]

/-- Every other position of BUF is unchanged (R106). -/
theorem bufWithByte_ne (s : State) (d : Byte) (p : Nat) (hp : p < 64) (h : p ≠ s.fill.toNat) :
    (bufWithByte s d)[p] = s.buf[p] := by
  simp [bufWithByte, Ne.symm h]

/-! ### The status bytes -/

/-- STATUS as a number (R34). -/
theorem statusByte_eq (s : State) :
    statusByte s = BitVec.ofNat 8 (4 * s.err.toNat + 2 * s.done.toNat + s.isBusy.toNat) := by
  unfold statusByte
  cases s.err <;> cases s.done <;> cases s.isBusy <;> decide

/-- The CAUSE register as a number (R35). -/
theorem causeByte_toNat (s : State) : (causeByte s).toNat = s.cause.code.toNat := by
  unfold causeByte
  cases s.cause <;> decide

/-- The FILL register as a number (R36). -/
theorem fillByte_toNat (s : State) : (fillByte s).toNat = s.fill.toNat := by
  unfold fillByte
  rw [BitVec.toNat_append]
  simp

/-- The FILL register holds FILL (R36). -/
theorem fillByte_eq (s : State) : fillByte s = BitVec.ofNat 8 s.fill.toNat := by
  apply BitVec.eq_of_toNat_eq
  have := s.fill.isLt
  rw [fillByte_toNat, BitVec.toNat_ofNat]
  omega

/-! ### The read port with BUSY = 0 -/

/-- With BUSY = 0 a read is the map of R55. -/
theorem rdRead_of_idle {s : State} (h : s.busy = none) (a : Byte) : rdRead a s = rdIdle a.toNat s := by
  simp [rdRead, State.isBusy, h]

/-- The address 0x00 reads STATUS at any time (R55). -/
theorem rdRead_status (s : State) : rdRead 0x00 s = statusByte s := by
  unfold rdRead
  split <;> simp [rdIdle]

end Sys2Proof.Machine
end

