-- ==== Sys2Proof/Laws/Exec.lean ====
section
/-! SUPPORT. What each meaning and each step can do, said once: if it answers `next t`, one of these cases holds. -/

namespace Sys2Proof.Machine

@[simp] theorem next_inj {s t : State} :
    (Host.Outcome.next s : Host.Outcome State Fault Refusal) = .next t ↔ s = t :=
  ⟨fun h => by injection h, fun h => h ▸ rfl⟩

theorem unlessErr_cases {s t : State} {body : Host.Outcome State Fault Refusal} (h : unlessErr s body = .next t) :
    (s.err = true ∧ t = s) ∨ (s.err = false ∧ body = .next t) := by
  unfold unlessErr at h
  split at h <;> rename_i he
  · exact .inl ⟨he, (next_inj.mp h).symm⟩
  · exact .inr ⟨by simpa using he, h⟩

theorem execNop_cases {s t : State} (h : execNop s = .next t) : t = s := by
  obtain ⟨-, rfl⟩ | ⟨-, h⟩ := unlessErr_cases h
  · rfl
  · exact (next_inj.mp h).symm

theorem execInit_cases {s t : State} (h : execInit s = .next t) :
    (s.err = true ∧ t = s) ∨ (s.err = false ∧ t = startMessage s) := by
  obtain h | ⟨he, h⟩ := unlessErr_cases h
  · exact .inl h
  · exact .inr ⟨he, (next_inj.mp h).symm⟩

theorem execAbsorb_cases {d : Byte} {s t : State} (h : execAbsorb d s = .next t) :
    (s.err = true ∧ t = s) ∨
    (s.err = false ∧ s.done = true ∧ t = raiseFault .protocol s) ∨
    (s.err = false ∧ s.done = false ∧ s.len = lMax ∧ t = raiseFault .lenOverflow s) ∨
    (s.err = false ∧ s.done = false ∧ s.len ≠ lMax ∧ s.fill = 63 ∧ t = storeLastByte d s) ∨
    (s.err = false ∧ s.done = false ∧ s.len ≠ lMax ∧ s.fill ≠ 63 ∧ t = storeByte d s) := by
  obtain h | ⟨he, h⟩ := unlessErr_cases h
  · exact .inl h
  · split at h
    · exact .inr (.inl ⟨he, ‹_›, (next_inj.mp h).symm⟩)
    · have hd : s.done = false := by simpa using ‹¬ s.done = true›
      split at h
      · exact .inr (.inr (.inl ⟨he, hd, ‹_›, (next_inj.mp h).symm⟩))
      · split at h
        · exact .inr (.inr (.inr (.inl ⟨he, hd, ‹_›, ‹_›, (next_inj.mp h).symm⟩)))
        · exact .inr (.inr (.inr (.inr ⟨he, hd, ‹_›, ‹_›, (next_inj.mp h).symm⟩)))

theorem execFinal_cases {s t : State} (h : execFinal s = .next t) :
    (s.err = true ∧ t = s) ∨
    (s.err = false ∧ s.done = true ∧ t = raiseFault .protocol s) ∨
    (s.err = false ∧ s.done = false ∧ t = finishMessage s) := by
  obtain h | ⟨he, h⟩ := unlessErr_cases h
  · exact .inl h
  · split at h
    · exact .inr (.inl ⟨he, ‹_›, (next_inj.mp h).symm⟩)
    · exact .inr (.inr ⟨he, by simpa using ‹¬ s.done = true›, (next_inj.mp h).symm⟩)

theorem execIllegal_cases {s t : State} (h : execIllegal s = .next t) :
    (s.err = true ∧ t = s) ∨ (s.err = false ∧ t = raiseFault .illegal s) := by
  obtain h | ⟨he, h⟩ := unlessErr_cases h
  · exact .inl h
  · exact .inr ⟨he, (next_inj.mp h).symm⟩

theorem accept_cases {c : CmdWord} {s t : State} (h : accept c s = .next t) :
    (∃ i, decode c = .ok i ∧ exec i s = .next t) ∨ (∃ e, decode c = .error e ∧ execIllegal s = .next t) := by
  unfold accept at h
  split at h
  · exact .inl ⟨_, ‹_›, h⟩
  · exact .inr ⟨_, ‹_›, h⟩

theorem head_ne_of_forall {ms : List HostMove} {m : HostMove} (h : ∀ rest, ms = m :: rest → False) :
    ms.head? ≠ some m := by
  cases ms with
  | nil => simp
  | cons m' rest => exact fun hh => h rest (by simpa using hh)

/-- Everything one step can do. -/
theorem step_cases {s t : State} (h : step s = .next t) :
    (∃ rest, s.moves = .reset :: rest ∧ t = resetEdge (setMoves rest s)) ∨
    (s.moves.head? ≠ some .reset ∧ ∃ p, s.busy = some p ∧ exec p.instr (release s) = .next t) ∨
    (s.busy = none ∧ ∃ c rest, s.moves = .command c :: rest ∧ accept c (setMoves rest s) = .next t) ∨
    (s.busy = none ∧ s.moves.head? ≠ some .reset ∧ (∀ c, s.moves.head? ≠ some (.command c)) ∧ t = passEdge s) := by
  unfold step transaction at h
  split at h
  · exact .inl ⟨_, ‹_›, (next_inj.mp h).symm⟩
  · split at h
    · exact .inr (.inl ⟨by simp [‹s.moves = _›], _, ‹_›, h⟩)
    · exact .inr (.inr (.inl ⟨‹_›, _, _, ‹_›, h⟩))
  · rename_i hm hc
    have hr := head_ne_of_forall hm
    split at h
    · exact .inr (.inl ⟨hr, _, ‹_›, h⟩)
    · exact .inr (.inr (.inr ⟨‹_›, hr, fun c => head_ne_of_forall (hc c), (next_inj.mp h).symm⟩))

/-- Everything the acceptance edge of a word can do. -/
theorem acceptEdge_cases {tm : Timing} {c : CmdWord} {s t : State} (h : acceptEdge tm c s = .next t) :
    (∃ e, decode c = .error e ∧ execIllegal s = .next t) ∨
    (∃ i, decode c = .ok i ∧ latency tm i s ≤ 1 ∧ exec i s = .next t) ∨
    (∃ i, decode c = .ok i ∧ 1 < latency tm i s ∧
      t = occupy { instr := i, cyclesLeft := latency tm i s - 1 } s) := by
  unfold acceptEdge at h
  split at h
  · exact .inl ⟨_, ‹_›, h⟩
  · split at h
    · exact .inr (.inl ⟨_, ‹_›, ‹_›, h⟩)
    · exact .inr (.inr ⟨_, ‹_›, by omega, (next_inj.mp h).symm⟩)

/-- Everything one edge of the clock can do. -/
theorem edge_cases {tm : Timing} {s t : State} (h : edge tm s = .next t) :
    (∃ rest, s.moves = .reset :: rest ∧ t = resetEdge (setMoves rest s)) ∨
    (s.moves.head? ≠ some .reset ∧ ∃ p, s.busy = some p ∧ busyEdge p s = .next t) ∨
    (s.busy = none ∧ ∃ c rest, s.moves = .command c :: rest ∧ acceptEdge tm c (setMoves rest s) = .next t) ∨
    (s.busy = none ∧ s.moves.head? ≠ some .reset ∧ (∀ c, s.moves.head? ≠ some (.command c)) ∧ t = passEdge s) := by
  unfold edge at h
  split at h
  · exact .inl ⟨_, ‹_›, (next_inj.mp h).symm⟩
  · split at h
    · exact .inr (.inl ⟨by simp [‹s.moves = _›], _, ‹_›, h⟩)
    · exact .inr (.inr (.inl ⟨‹_›, _, _, ‹_›, h⟩))
  · rename_i hm hc
    have hr := head_ne_of_forall hm
    split at h
    · exact .inr (.inl ⟨hr, _, ‹_›, h⟩)
    · exact .inr (.inr (.inr ⟨‹_›, hr, fun c => head_ne_of_forall (hc c), (next_inj.mp h).symm⟩))

end Sys2Proof.Machine
end

