-- ==== Sys2Proof/Laws/PerInstr.lean ====
section
/-! SUPPORT. Statements for all instructions, one lemma a constructor. Family `ReservedFields`: an instruction's word
has RSV = 0, and DATA = 0 unless the instruction is ABSORB (R70). -/

namespace Sys2Proof.Laws

/-- The word of `i` keeps the reserved fields of R70 at 0. -/
def ReservedFields.Statement (i : Instr) : Prop :=
  rsvField (encode i) = 0 ∧ (dataField (encode i) = 0 ∨ ∃ d, i = .absorb d)

theorem ReservedFields.nop : ReservedFields.Statement .nop := ⟨by decide, .inl (by decide)⟩

theorem ReservedFields.init : ReservedFields.Statement .init := ⟨by decide, .inl (by decide)⟩

theorem ReservedFields.absorb (d : Byte) : ReservedFields.Statement (.absorb d) :=
  ⟨by revert d; decide, .inr ⟨d, rfl⟩⟩

theorem ReservedFields.final : ReservedFields.Statement .final := ⟨by decide, .inl (by decide)⟩

end Sys2Proof.Laws
end

