-- ==== Sys2Proof/Tests/Slice0.lean ====
section
/-! SUPPORT. The model's own tests. Expected values are those of spec/95_test_vectors.md (the section is named at each
test) or of the rule named. The `wit_` theorems show that the hypotheses of a statement can be met together. -/

namespace Sys2Proof.Tests

open Sys2Proof Sys2Proof.Machine

/-- A property of the next state. -/
def holdsNext (o : Host.Outcome State Fault Refusal) (p : State → Bool) : Bool :=
  match o with
  | .next t => p t
  | .fault _ => false
  | .refused _ => false

/-- The reset state with the bytes `bytes` absorbed and no block filled. -/
def absorbing (bytes : List Byte) : State :=
  { State.reset with
    buf := blockOf bytes, len := BitVec.ofNat 64 bytes.length, fill := BitVec.ofNat 6 bytes.length }

/-- A state after a FINAL. -/
def finished : State := { State.reset with done := true, len := 3, digest := Vector.replicate 32 0xba }

/-- A state after an ILLEGAL fault. -/
def faulted : State := { State.reset with err := true, cause := .illegal }

/-- A state with the greatest length. -/
def longest : State := { State.reset with len := lMax, fill := 63 }

/-- The reset state whose host presents the word `c`. -/
def presenting (c : CmdWord) : State := setMoves [.command c] State.reset

/-! ### Well-formedness: each check refuses an ill-formed term -/

theorem test_wf_refuses_number_256 : (AsmByte.number 256).wf = false ∧ (AsmByte.number 255).wf = true := by decide

theorem test_wf_refuses_non_ascii : (AsmByte.char 'é').wf = false ∧ (AsmByte.char 'a').wf = true := by decide

theorem test_wf_refuses_command : (AsmCommand.absorb (.number 300)).wf = false := by decide

theorem test_wf_refuses_zero_cycles :
    (Timing.mk 0 1 1 1).wf = false ∧ (Timing.mk 1 0 1 1).wf = false ∧ (Timing.mk 1 1 0 1).wf = false ∧
    (Timing.mk 1 1 1 0).wf = false ∧ (Timing.mk 1 1 1 1).wf = true := by decide

/-! ### Decoding (2.6), the words written out bit by bit from the encoding column -/

theorem test_decode_words :
    decode 0b0000000000000000#16 = .ok .nop ∧ decode 0b0001000000000000#16 = .ok .init ∧
    decode 0b0010000010000000#16 = .ok (.absorb 0x80) ∧ decode 0b0011000000000000#16 = .ok .final := by decide

theorem test_decode_reasons :
    decode 0x0001#16 = .error .unexpectedData ∧ decode 0x2100#16 = .error .reservedBits ∧
    decode 0x3080#16 = .error .unexpectedData ∧ decode 0xf0ff#16 = .error .reservedOp := by decide

/-- R75: `ABSORB 'a'` assembles to 0x2061. -/
theorem test_assemble_char : assemble (.absorb (.char 'a')) = some 0x2061 := by decide

theorem test_parse_lines :
    parseLine ['A', 'B', 'S', 'O', 'R', 'B', ' ', '\'', 'a', '\'', ' ', ';', ' ', 'x'] =
      some (some (.absorb (.char 'a'))) ∧
    parseLine ['A', 'B', 'S', 'O', 'R', 'B', ' ', '0', 'x', '6', '1'] = some (some (.absorb (.number 0x61))) ∧
    parseLine ['F', 'I', 'N', 'A', 'L'] = some (some .final) ∧ parseLine [';'] = some none ∧
    parseLine ['N', 'O', 'P', 'X'] = none := by decide

/-! ### One step of each command (2.6) -/

/-- V1. -/
theorem test_nop : step (presenting 0x0000) = .next State.reset := rfl

/-- V8. -/
theorem test_init : holdsNext (step (setMoves [.command 0x1000] finished))
    (fun t => !t.done && decide (t.len = 0 ∧ t.fill = 0 ∧ t.h = IV ∧ t.digest = finished.digest)) = true := by decide

/-- V5: the 64th byte 0x61. -/
theorem test_absorb_fills_the_block :
    holdsNext (step (setMoves [.command 0x2061] (absorbing (List.replicate 63 0x61)))) (fun t =>
      decide (t.len = 64 ∧ t.fill = 0 ∧ t.h = #v[0xdf5bb81c, 0xe81e0626, 0xfb45a894, 0x4fd40f31, 0xb25e6816,
        0xd6d499c1, 0xab904929, 0x00635e66])) = true := by decide +kernel

/-- V15: PROTOCOL beats LEN_OVERFLOW. -/
theorem test_absorb_priority :
    step (setMoves [.command 0x2000] { longest with done := true }) =
      .next { longest with done := true, err := true, cause := .protocol } := rfl

/-- V7: the digest of "abc". -/
theorem test_final_abc :
    holdsNext (step (setMoves [.command 0x3000] (absorbing [0x61, 0x62, 0x63]))) (fun t =>
      t.done && decide (t.len = 3 ∧ t.fill = 0 ∧ t.digest.toList.foldl (fun acc b => acc * 256 + b.toNat) 0 =
        0xba7816bf_8f01cfea_414140de_5dae2223_b00361a3_96177a9c_b410ff61_f20015ad)) = true := by
  decide +kernel

/-- P3: 56 bytes, two tail blocks. -/
theorem test_final_two_blocks :
    holdsNext (step (setMoves [.command 0x3000] (absorbing (List.replicate 56 0x61)))) (fun t =>
      decide (t.buf.toList.drop 54 = [0, 0, 0, 0, 0, 0, 0, 0, 0x01, 0xc0] ∧ t.digest.toList.take 8 =
        [0xb3, 0x54, 0x39, 0xa4, 0xac, 0x6f, 0x09, 0x48])) = true := by decide +kernel

/-! ### The blocks (2.2, 2.3, 2.4, 2.7) -/

theorem test_small_sigmas : sigma0 0x12345678 = 0xe7fce6ee ∧ sigma1 0x12345678 = 0xa1f78649 := by decide

theorem test_round_functions :
    bigSigma0 0x12345678 = 0x66146474 ∧ bigSigma1 0x12345678 = 0x3561abda ∧
    ch 0xff00ff00 0x12345678 0x9abcdef0 = 0x12bc56f0 ∧ maj 0xff00ff00 0x12345678 0x9abcdef0 = 0x9a34de70 := by decide

/-- Words of the schedule of an all-0xFF block. -/
theorem test_schedule_wraps :
    (schedule (Vector.replicate 64 0xff))[16] = 0x203ffffc ∧ (schedule (Vector.replicate 64 0xff))[63] = 0x4bceaf09 := by
  decide +kernel

/-- The first two rounds of the block `PAD("abc")`. -/
theorem test_rounds_abc :
    roundsUpTo IV (schedule (blockOf (pad [0x61, 0x62, 0x63]))) 2 (by decide) =
      ⟨0x5a6ad9ad, 0x5d6aebcd, 0x6a09e667, 0xbb67ae85, 0x78ce7989, 0xfa2a4622, 0x510e527f, 0x9b05688c⟩ := by
  decide +kernel

/-- A zero state and a zero block: only K acts. -/
theorem test_block_step_zero :
    blockStep (Vector.replicate 8 0) (Vector.replicate 64 0) =
      #v[0x7ca51614, 0x425c3ba8, 0xce54dd2f, 0xc2020ae7, 0xb6e574d1, 0x98136d0f, 0xae7e26cc, 0xbf0be7a6] := by
  decide +kernel

/-- With LEN = 0x12345 the addresses 0x0D to 0x0F read 01 23 45. -/
theorem test_read_len :
    [0x0C, 0x0D, 0x0E, 0x0F].map (fun a => rdRead a { State.reset with len := 0x12345 }) = [0x00, 0x01, 0x23, 0x45] := by
  decide

/-- The byte 0xa0 reads as "a0". -/
theorem test_read_hex :
    [0x40, 0x41].map (fun a => rdRead a { State.reset with digest := Vector.replicate 32 0xa0 }) = [0x61, 0x30] := by
  decide +kernel

/-- R76: the reads at the end of the two pseudo-instructions. -/
theorem test_pseudo_reads :
    (expandPseudo (.hashBytes [0x61])).drop 4 = readMoves 0x20 32 ∧ (readMoves 0x20 32).head? = some (.read 0x20) ∧
    (readMoves 0x20 32).getLast? = some (.read 0x3F) ∧ (readMoves 0x20 32).length = 32 ∧
    (expandPseudo (.hashText "a")).drop 4 = readMoves 0x40 64 ∧ (readMoves 0x40 64).head? = some (.read 0x40) ∧
    (readMoves 0x40 64).getLast? = some (.read 0x7F) ∧ (readMoves 0x40 64).length = 64 := by decide +kernel

/-- R76: text is absorbed as its UTF-8 bytes; "é" is C3 A9. -/
theorem test_pseudo_text :
    expandPseudo (.absorbsText "aé") = [.command 0x2061, .command 0x20c3, .command 0x20a9] := by decide +kernel

/-- R34: a read takes STATUS with DONE = 1. -/
theorem test_read_move :
    holdsNext (step (setMoves [.read 0x00] finished)) (fun t => decide (t.readings = [0x02] ∧ t.moves = [])) = true := by
  decide

/-! ### Witnesses: encoding -/

theorem wit_DecodeFollowsTheFieldTests :
    (0x0100#16).toNat / 256 % 16 ≠ 0 ∧
    ((0x0000#16).toNat / 256 % 16 = 0 ∧ (0x0000#16).toNat / 4096 = 0 ∧ (0x0000#16).toNat % 256 = 0) ∧
    ((0x1000#16).toNat / 256 % 16 = 0 ∧ (0x1000#16).toNat / 4096 = 1 ∧ (0x1000#16).toNat % 256 = 0) ∧
    ((0x20ff#16).toNat / 256 % 16 = 0 ∧ (0x20ff#16).toNat / 4096 = 2) ∧
    ((0x3000#16).toNat / 256 % 16 = 0 ∧ (0x3000#16).toNat / 4096 = 3 ∧ (0x3000#16).toNat % 256 = 0) ∧
    ((0x4000#16).toNat / 256 % 16 = 0 ∧ (0x4000#16).toNat / 4096 ≠ 2 ∧
      ¬((0x4000#16).toNat / 4096 < 4 ∧ (0x4000#16).toNat % 256 = 0)) ∧
    ((0x0001#16).toNat / 256 % 16 = 0 ∧ (0x0001#16).toNat / 4096 ≠ 2 ∧
      ¬((0x0001#16).toNat / 4096 < 4 ∧ (0x0001#16).toNat % 256 = 0)) := by decide

theorem wit_DecodeMatchesTheOpcodeMap :
    (0x0001#16 &&& 0xFFFF#16 ≠ 0x0000#16 ∧ 0x0001#16 &&& 0xFFFF#16 ≠ 0x1000#16 ∧ 0x0001#16 &&& 0xFF00#16 ≠ 0x2000#16 ∧
      0x0001#16 &&& 0xFFFF#16 ≠ 0x3000#16) ∧ 0x4000#16 ≤ 0x4000#16 ∧ 0x4000#16 ≤ 0xffff#16 := by decide

theorem wit_DecodeOfEncodeIsTheInstruction :
    Instr.nop.wf = true ∧ Instr.init.wf = true ∧ (Instr.absorb 0xff).wf = true ∧ Instr.final.wf = true := by decide

theorem wit_EncodeOfDecodeIsTheWord : decode 0x20ff#16 = .ok (.absorb 0xff) := by decide

theorem wit_AssembleGivesTheWords : 0 ≤ 255 ∧ 255 ≤ 255 ∧ 255 < 256 ∧ 'a'.toNat < 128 ∧ '\x7f'.toNat < 128 := by decide

/-! ### Witnesses: one step and the commands -/

theorem wit_StepRunsTheDecodedCommand :
    (presenting 0x2061).busy = none ∧ (presenting 0x2061).moves = .command 0x2061 :: [] ∧
    decode 0x2061#16 = .ok (.absorb 0x61) := by decide

theorem wit_PresentedWordRunsNext :
    0x20ff < 2 ^ 16 ∧ decode (BitVec.ofNat 16 0x20ff) = .ok (.absorb 0xff) := by decide

theorem wit_NothingPresentedChangesNothing :
    (State.reset.busy = none ∧ ∀ m ∈ State.reset.moves.head?, m = .idle ∨ m = .wait) ∧
    ((setMoves [.wait] State.reset).busy = none ∧
      ∀ m ∈ (setMoves [.wait] State.reset).moves.head?, m = .idle ∨ m = .wait) ∧
    ((setMoves [.read 0x20] finished).busy = none ∧ (setMoves [.read 0x20] finished).moves = .read 0x20 :: []) := by
  simp [State.reset, finished]

theorem wit_NopChangesNothing : (0x0001#16).toNat / 4096 = 0 ∧ (0x0001#16).toNat % 256 ≠ 0 := by decide

theorem wit_InitStartsAMessage :
    State.reset.err = false ∧ finished.err = false ∧ exec .init faulted = .next faulted ∧
    ((0x1001#16).toNat / 4096 = 1 ∧ (0x1001#16).toNat % 256 ≠ 0) ∧
    ((0x1100#16).toNat / 4096 = 1 ∧ (0x1100#16).toNat / 256 % 16 ≠ 0) := by
  exact ⟨rfl, rfl, rfl, by decide, by decide⟩

theorem wit_AbsorbAppendsAByte :
    (finished.err = false ∧ finished.done = true) ∧
    (longest.err = false ∧ longest.done = false ∧ longest.len.toNat = 2 ^ 61 - 1) ∧
    ((absorbing (List.replicate 62 0x61)).err = false ∧ (absorbing (List.replicate 62 0x61)).done = false ∧
      (absorbing (List.replicate 62 0x61)).len.toNat ≠ 2 ^ 61 - 1 ∧ (absorbing (List.replicate 62 0x61)).fill ≠ 63) ∧
    ((absorbing (List.replicate 63 0x61)).err = false ∧ (absorbing (List.replicate 63 0x61)).done = false ∧
      (absorbing (List.replicate 63 0x61)).len.toNat ≠ 2 ^ 61 - 1 ∧ (absorbing (List.replicate 63 0x61)).fill = 63) := by
  decide

theorem wit_FinalFinishesTheMessage :
    (finished.err = false ∧ finished.done = true) ∧
    ((absorbing (List.replicate 55 0x61)).err = false ∧ (absorbing (List.replicate 55 0x61)).done = false ∧
      (absorbing (List.replicate 55 0x61)).fill.toNat ≤ 55) ∧
    ((absorbing (List.replicate 56 0x61)).err = false ∧ (absorbing (List.replicate 56 0x61)).done = false ∧
      56 ≤ (absorbing (List.replicate 56 0x61)).fill.toNat) := by decide

/-! ### Witnesses: frames -/

theorem wit_FrameOfInit :
    exec .init finished = .next (startMessage finished) ∧ exec .init faulted = .next faulted ∧ faulted.err = true ∧
    finished.busy = none ∧ (0x20 : Byte) ≠ 0x00 ∧ (0x20 : Byte) ≠ 0x02 ∧ ¬((0x08 : Byte) ≤ 0x20 ∧ (0x20 : Byte) ≤ 0x0F) := by
  exact ⟨rfl, rfl, rfl, rfl, by decide, by decide, by decide⟩

theorem wit_FrameOfAbsorb :
    exec (.absorb 0x61) State.reset = .next (storeByte 0x61 State.reset) ∧ State.reset.fill ≠ 63 ∧
    commandFault (.absorb 0x61) State.reset = none ∧
    exec (.absorb 0x61) finished = .next (raiseFault .protocol finished) ∧
    (raiseFault .protocol finished).err = true ∧ State.reset.busy = none ∧
    (1 < 64 ∧ 1 ≠ State.reset.fill.toNat) ∧
    ((0x02 : Byte) < 0x10 ∧ ¬((0x08 : Byte) ≤ 0x10 ∧ (0x10 : Byte) ≤ 0x0F)) := by
  exact ⟨rfl, by decide, by decide, rfl, rfl, rfl, by decide, by decide⟩

theorem wit_FrameOfFinal :
    exec .final State.reset = .next (finishMessage State.reset) ∧ commandFault .final State.reset = none ∧
    exec .final finished = .next (raiseFault .protocol finished) ∧ (raiseFault .protocol finished).err = true ∧
    State.reset.busy = none ∧ ((0x02 : Byte) < 0x0F ∧ ¬((0x20 : Byte) ≤ 0x0F ∧ (0x0F : Byte) ≤ 0x7F)) := by
  exact ⟨rfl, by decide, rfl, rfl, rfl, by decide⟩

theorem wit_DigestChangesOnlyAtFinalOrReset :
    step (presenting 0x3000) = .next (finishMessage (setMoves [] State.reset)) ∧
    (finishMessage (setMoves [] State.reset)).digest ≠ (presenting 0x3000).digest := by
  exact ⟨rfl, by decide +kernel⟩

theorem wit_DoneChangesOnlyAtInitFinalOrReset :
    step (presenting 0x3000) = .next (finishMessage (setMoves [] State.reset)) ∧
    (finishMessage (setMoves [] State.reset)).done ≠ (presenting 0x3000).done := by
  exact ⟨rfl, by decide⟩

theorem wit_LenCountsTheAbsorbedBytes :
    step (presenting 0x2061) = .next (storeByte 0x61 (setMoves [] State.reset)) ∧
    (storeByte 0x61 (setMoves [] State.reset)).len ≠ (presenting 0x2061).len := by
  exact ⟨rfl, by decide⟩

theorem wit_HiddenStateNeverReachesTheVisible :
    State.reset.registers = ({ State.reset with rnd := 7, draw := 3 } : State).registers ∧
    State.reset.busy = ({ State.reset with rnd := 7, draw := 3 } : State).busy ∧
    State.reset.moves = ({ State.reset with rnd := 7, draw := 3 } : State).moves ∧
    State.reset.readings = ({ State.reset with rnd := 7, draw := 3 } : State).readings ∧
    step State.reset = .next State.reset ∧ State.reset.busy = none := by
  exact ⟨rfl, rfl, rfl, rfl, rfl, rfl⟩

/-! ### Witnesses: faults and reset -/

theorem wit_LengthOverflowIsRefused :
    (longest.err = false ∧ longest.done = false ∧ longest.len.toNat = 2 ^ 61 - 1) ∧
    (({ longest with len := lMax - 1, fill := 62 } : State).err = false ∧
      ({ longest with len := lMax - 1, fill := 62 } : State).done = false ∧
      ({ longest with len := lMax - 1, fill := 62 } : State).len.toNat = 2 ^ 61 - 2) := by decide

theorem wit_IllegalWordRaisesTheFault :
    (presenting 0x4000).busy = none ∧ (presenting 0x4000).err = false ∧
    (presenting 0x4000).moves = .command 0x4000 :: [] ∧ decode 0x4000#16 = .error .reservedOp := by decide

theorem wit_FinishedMessageIsProtected : finished.err = false ∧ finished.done = true := by decide

/-- One state and word for each clause. -/
theorem wit_FaultPriority :
    (setMoves [.command 0x4000] faulted).err = true ∧
    ((presenting 0x4000).err = false ∧ decode 0x4000#16 = .error .reservedOp) ∧
    ((setMoves [.command 0x3000] finished).err = false ∧ decode 0x3000#16 = .ok .final ∧
      (setMoves [.command 0x3000] finished).done = true) ∧
    ((setMoves [.command 0x2000] longest).err = false ∧ decode 0x2000#16 = .ok (.absorb 0x00) ∧
      (setMoves [.command 0x2000] longest).done = false ∧ (setMoves [.command 0x2000] longest).len = lMax) ∧
    ((setMoves [.command 0x3000] longest).err = false ∧ decode 0x3000#16 = .ok .final ∧
      commandFault .final (setMoves [.command 0x3000] longest) = none) ∧
    (presenting 0x4000).busy = none ∧ (presenting 0x4000).moves = .command 0x4000 :: [] := by decide

theorem wit_FaultsArePrecise :
    (presenting 0x4000).err = false ∧ step (presenting 0x4000) = .next (raiseFault .illegal (setMoves [] State.reset)) ∧
    (raiseFault .illegal (setMoves [] State.reset)).err = true := by
  exact ⟨rfl, rfl, rfl⟩

theorem wit_WordsAreIgnoredAfterAFault :
    (setMoves [.command 0x2061, .idle] faulted).err = true ∧ (setMoves [.command 0x2061, .idle] faulted).busy = none ∧
    (setMoves [.command 0x2061, .idle] faulted).moves = .command 0x2061 :: [.idle] ∧
    [HostMove.idle].head? ≠ some .reset := by decide

theorem wit_OnlyResetClearsTheError :
    faulted.err = true ∧ step (setMoves [.command 0x1000] faulted) = .next faulted ∧
    edge ⟨1, 1, 1, 1⟩ (setMoves [.command 0x1000] faulted) = .next faulted ∧
    (setMoves [.command 0x1000] faulted).moves.head? ≠ some .reset := by
  exact ⟨rfl, rfl, rfl, by decide⟩

theorem wit_ResetStateIsAsListed :
    (0 < 64 ∧ 63 < 64 ∧ 31 < 32) ∧ ¬((0x40 : Byte) ≤ 0x3F ∧ (0x3F : Byte) ≤ 0x7F) ∧
    ¬((0x40 : Byte) ≤ 0x80 ∧ (0x80 : Byte) ≤ 0x7F) := by decide

theorem wit_ResetEdgeTakesTheResetState : (setMoves [.reset] faulted).moves = .reset :: [] := rfl

theorem wit_ResetIsTheStateOfInit :
    finished.err = false ∧ exec .init finished = .next (startMessage finished) := ⟨rfl, rfl⟩

/-! ### Witnesses: the read port and the blocks -/

theorem wit_ReadPortMap :
    State.reset.busy = none ∧ (0 < 8 ∧ 7 < 8) ∧ (0 < 32 ∧ 31 < 32) ∧ (0 < 64 ∧ 63 < 64) ∧
    ((0x03 : Byte) ≤ 0x07 ∧ (0x07 : Byte) ≤ 0x07) ∧ ((0x10 : Byte) ≤ 0x1F ∧ (0x1F : Byte) ≤ 0x1F) ∧
    (0x80 : Byte) ≤ 0x80 ∧ (0x80 : Byte) ≤ 0xFF ∧
    (State.reset.cause = .none ∧ faulted.busy = none ∧ faulted.cause = .illegal ∧
      (raiseFault .protocol finished).busy = none ∧ (raiseFault .protocol finished).cause = .protocol ∧
      (raiseFault .lenOverflow longest).busy = none ∧ (raiseFault .lenOverflow longest).cause = .lenOverflow) := by
  decide

theorem wit_StatusReadsAtAnyTime : 3 ≤ 3 ∧ 3 ≤ 7 := by decide

theorem wit_LenReadsBigEndian : longest.busy = none ∧ longest.len ≤ lMax := by decide

theorem wit_HexIsTheLowercaseDigest : (0 < 32 ∧ 31 < 32) ∧ (0 < 64 ∧ 63 < 64) := by decide

theorem wit_RotationMovesEachBit : (0 < 1 ∧ 1 < 32 ∧ 31 < 32) ∧ (0 < 31 ∧ 31 < 32 ∧ 0 < 32) := by decide

theorem wit_SigmasBitByBit : 0 < 32 ∧ 31 < 32 := by decide

theorem wit_ScheduleRecurrence : (0 < 16 ∧ 15 < 16) ∧ (16 ≤ 16 ∧ 16 < 64) ∧ (16 ≤ 63 ∧ 63 < 64) := by decide

theorem wit_ChooseAndMajorityBitByBit : 0 < 32 ∧ 31 < 32 := by decide

theorem wit_CompressRunsSixtyFourRounds : 0 < 64 ∧ 63 < 64 := by decide

theorem wit_SerializeIsBigEndian : (0 < 8 ∧ 7 < 8) ∧ (0 < 4 ∧ 3 < 4) := by decide

/-! ### Witnesses: padding, invariants, whole messages -/

theorem wit_PadMeetsTheContract :
    ([] : List Byte).length ≤ 2 ^ 61 - 1 ∧
    ((pad []).length = 64 ∧ ([] : List Byte).length < 1 ∧ 1 < (pad []).length - 8 ∧ 55 < (pad []).length - 8) ∧
    (64 ∣ 64 ∧ ([] : List Byte).length + 9 ≤ 64) := by decide

theorem wit_EmittedBlocksAreThePaddedMessage : (List.replicate 56 (0x61 : Byte)).length ≤ 2 ^ 61 - 1 := by decide

/-- The invariant is met at the greatest length too. -/
theorem inv_longest (ms : List HostMove) : (setMoves ms longest).Inv :=
  ⟨by simp [longest], fun _ => by simp [longest, lMax], fun h => by simp [longest, State.reset] at h,
   fun h => by simp [longest, State.reset] at h, by simp [longest, State.reset]⟩

theorem wit_StepKeepsTheRegisterInvariant :
    (setMoves [.command 0x2000] longest).Inv ∧
    step (setMoves [.command 0x2000] longest) = .next (raiseFault .lenOverflow (setMoves [] longest)) :=
  ⟨inv_longest _, rfl⟩

/-- A state with a command in flight, half way. -/
def halfWay : State := occupy { instr := .absorb 0x61, cyclesLeft := 2 } State.reset

theorem wit_EdgeKeepsTheInvariants :
    halfWay.Inv ∧ halfWay.FlightInv ∧
    edge ⟨3, 3, 3, 3⟩ halfWay = .next (tick { instr := .absorb 0x61, cyclesLeft := 2 } halfWay) := by
  refine ⟨⟨?_, fun _ => rfl, fun h => ?_, fun h => ?_, ?_⟩, fun p hp => ?_, rfl⟩
  · simp [halfWay, State.reset, lMax]
  · simp [halfWay, State.reset] at h
  · simp [halfWay, State.reset] at h
  · simp [halfWay, State.reset]
  · have h : p = { instr := .absorb 0x61, cyclesLeft := 2 } := by simpa [halfWay] using hp.symm
    subst h
    exact ⟨rfl, by decide, by decide⟩

/-- A state that has absorbed one byte holds the message of this byte. -/
theorem represents_one (ms : List HostMove) : Represents (setMoves ms (absorbing [0x61])) [0x61] where
  short := by decide
  len_eq := rfl
  fill_absorbing _ := rfl
  tail_absorbing _ := by simp only [tailBytes, setMoves_buf, setMoves_fill]; decide +kernel
  h_absorbing _ := rfl
  fill_done h := by simp [absorbing, State.reset] at h
  h_done h := by simp [absorbing, State.reset] at h
  digest_done h := by simp [absorbing, State.reset] at h

theorem wit_StepKeepsTheMessageHistory :
    Represents (setMoves [.command 0x2062] (absorbing [0x61])) [0x61] ∧
    step (setMoves [.command 0x2062] (absorbing [0x61])) = .next (storeByte 0x62 (setMoves [] (absorbing [0x61]))) :=
  ⟨represents_one _, rfl⟩

theorem wit_CommandsBuildAndFinishTheMessage :
    Represents (setMoves [] (absorbing [0x61])) [0x61] ∧ (setMoves [] (absorbing [0x61])).err = false ∧
    (setMoves [] (absorbing [0x61])).done = false ∧ ([0x61] : List Byte).length < 2 ^ 61 - 1 :=
  ⟨represents_one _, rfl, rfl, by decide⟩

theorem wit_DigestIsBlockStepStarOfPad : (0 < 64 ∧ 63 < 64) ∧ (0 < 8 ∧ 7 < 8) := by decide

theorem wit_HashBytesGivesSha256 :
    ((setMoves (expandPseudo (.hashBytes [0x61]) ++ [.idle]) finished).busy = none ∧
      (setMoves (expandPseudo (.hashBytes [0x61]) ++ [.idle]) finished).err = false ∧
      ([0x61] : List Byte).length ≤ 2 ^ 61 - 1 ∧
      (setMoves (expandPseudo (.hashBytes [0x61]) ++ [.idle]) finished).moves =
        expandPseudo (.hashBytes [0x61]) ++ [.idle]) ∧
    ((setMoves (expandPseudo (.hashText "aé") ++ [.idle]) finished).busy = none ∧
      (setMoves (expandPseudo (.hashText "aé") ++ [.idle]) finished).err = false ∧
      (utf8Bytes "aé").length ≤ 2 ^ 61 - 1 ∧
      (setMoves (expandPseudo (.hashText "aé") ++ [.idle]) finished).moves =
        expandPseudo (.hashText "aé") ++ [.idle]) := by
  exact ⟨⟨rfl, rfl, by decide, rfl⟩, ⟨rfl, rfl, by decide +kernel, rfl⟩⟩

theorem wit_HashStraightAfterReset : ([] : List Byte).length ≤ 2 ^ 61 - 1 := by decide

/-- Two states of different histories, each with the empty message to hash; both runs end in a next state. -/
theorem wit_DigestDependsOnTheMessageOnly :
    (setMoves (hashMoves [] ++ []) finished).busy = none ∧ (setMoves (hashMoves [] ++ []) State.reset).busy = none ∧
    (setMoves (hashMoves [] ++ []) finished).err = false ∧ (setMoves (hashMoves [] ++ []) State.reset).err = false ∧
    ([] : List Byte).length ≤ 2 ^ 61 - 1 ∧
    (∃ t : State, Sys2Proof.core.run (([] : List Byte).length + 3) (setMoves (hashMoves [] ++ []) finished) = .next t) ∧
    (∃ t : State, Sys2Proof.core.run (([] : List Byte).length + 3) (setMoves (hashMoves [] ++ []) State.reset) =
      .next t) ∧
    ((0x20 : Byte) ≤ 0x20 ∧ (0x20 : Byte) ≤ 0x7F) ∧ ((0x20 : Byte) ≤ 0x7F ∧ (0x7F : Byte) ≤ 0x7F) := by
  exact ⟨rfl, rfl, rfl, rfl, by decide, ⟨_, rfl⟩, ⟨_, rfl⟩, by decide, by decide⟩

/-! ### Witnesses: the clocked machine -/

/-- One state for each clause: an edge that counts and an edge that completes. -/
theorem wit_NothingIsAcceptedWhileBusy :
    ((setMoves [.command 0x1000] halfWay).busy = some { instr := .absorb 0x61, cyclesLeft := 2 } ∧
      (setMoves [.command 0x1000] halfWay).moves = .command 0x1000 :: [] ∧
      (∃ t, edge ⟨3, 3, 3, 3⟩ (setMoves [.command 0x1000] halfWay) = .next t) ∧ 1 < 2) ∧
    ((occupy { instr := .nop, cyclesLeft := 1 } (presenting 0x1000)).busy = some { instr := .nop, cyclesLeft := 1 } ∧
      (occupy { instr := .nop, cyclesLeft := 1 } (presenting 0x1000)).moves = .command 0x1000 :: [] ∧
      (∃ t, edge ⟨3, 3, 3, 3⟩ (occupy { instr := .nop, cyclesLeft := 1 } (presenting 0x1000)) = .next t) ∧ 1 ≤ 1) := by
  exact ⟨⟨rfl, rfl, ⟨_, rfl⟩, by decide⟩, ⟨rfl, rfl, ⟨_, rfl⟩, by decide⟩⟩

theorem wit_OneCycleEdgeIsAStep : (presenting 0x2061).busy = none := rfl

/-- One state and word for each of the three grounds. -/
theorem wit_FaultsTakeOneCycle :
    ((setMoves [.command 0x1000] faulted).busy = none ∧ (setMoves [.command 0x1000] faulted).err = true) ∧
    ((presenting 0x4000).busy = none ∧ decode 0x4000#16 = .error .reservedOp) ∧
    ((setMoves [.command 0x3000] finished).busy = none ∧ decode 0x3000#16 = .ok .final ∧
      (commandFault .final (setMoves [.command 0x3000] finished)).isSome = true) := by decide

theorem wit_ClockedCommandRefinesTheStep :
    (Timing.mk 1 65 66 130).wf = true ∧ (presenting 0x3000).busy = none ∧
    (presenting 0x3000).moves = .command (encode .final) :: [] ∧ HostMove.reset ∉ ([] : List HostMove) ∧
    (0 < 65 ∧ 65 < latency (Timing.mk 1 65 66 130) .final (presenting 0x3000)) ∧
    ((setMoves [.command 0x1000] faulted).err = true ∧ commandFault .final finished = some .protocol) ∧
    (State.reset.err = false ∧ commandFault .nop State.reset = none ∧ commandFault .init State.reset = none) ∧
    ((absorbing (List.replicate 62 0x61)).fill ≠ 63 ∧ (absorbing (List.replicate 63 0x61)).fill = 63 ∧
      commandFault (.absorb 0x61) (absorbing (List.replicate 62 0x61)) = none ∧
      commandFault (.absorb 0x61) (absorbing (List.replicate 63 0x61)) = none) ∧
    ((absorbing (List.replicate 55 0x61)).fill.toNat ≤ 55 ∧ 56 ≤ (absorbing (List.replicate 56 0x61)).fill.toNat ∧
      commandFault .final (absorbing (List.replicate 55 0x61)) = none ∧
      commandFault .final (absorbing (List.replicate 56 0x61)) = none) := by decide

theorem wit_ClockedHashTerminates :
    (Timing.mk 1 65 66 130).wf = true ∧
    (setMoves (expandPseudo (.hashBytes [0x61]) ++ []) State.reset).busy = none ∧
    (setMoves (expandPseudo (.hashBytes [0x61]) ++ []) State.reset).err = false ∧
    ([0x61] : List Byte).length ≤ 2 ^ 61 - 1 ∧
    (setMoves (expandPseudo (.hashBytes [0x61]) ++ []) State.reset).moves = expandPseudo (.hashBytes [0x61]) ++ [] := by
  decide

end Sys2Proof.Tests
end

namespace Sys2Proof.Machine

/-! ### Running a state's moves -/

/-- A step of an idle state accepts the word its host presents, whatever the word (R235). -/
theorem step_command {s : State} {c : CmdWord} {rest : List HostMove} (hbusy : s.busy = none)
    (hmoves : s.moves = .command c :: rest) : step s = accept c (setMoves rest s) := by
  simp [step, transaction, hbusy, hmoves]

theorem accept_of_decode_ok {c : CmdWord} {i : Instr} (hdecode : decode c = .ok i) (s : State) :
    accept c s = exec i s := by
  simp [accept, hdecode]

/-- Settles O8: with no command in flight a step accepts the word the host presents, and dispatches on its decoding. -/
theorem stepRunsTheDecodedCommand : Obligations.StepRunsTheDecodedCommand :=
  fun _ _ _ _ hbusy hmoves hdecode => (step_command hbusy hmoves).trans (accept_of_decode_ok hdecode _)

/-- The decoder reads the word of an instruction back (R74, R75). -/
theorem decode_encode (i : Instr) : decode (encode i) = .ok i := by
  cases i with
  | nop => decide
  | init => decide
  | final => decide
  | absorb d =>
    have hrsv : rsvField (encode (.absorb d)) = 0 := (Laws.ReservedFields.absorb d).1
    have hop : opField (encode (.absorb d)) = 0x2 := by revert d; decide
    have hdata : dataField (encode (.absorb d)) = d := by revert d; decide
    simp [decode, hrsv, hop, hdata]

/-- A step of an idle state whose host presents the instruction `i` is `exec i` (R111, R235). -/
theorem step_present {s : State} {i : Instr} {rest : List HostMove} (hbusy : s.busy = none)
    (hmoves : s.moves = present i :: rest) : step s = exec i (setMoves rest s) :=
  stepRunsTheDecodedCommand s (encode i) rest i hbusy hmoves (decode_encode i)

/-- A step of an idle state whose host waits ends the WAIT (R77). -/
theorem step_wait {s : State} {rest : List HostMove} (hbusy : s.busy = none) (hmoves : s.moves = .wait :: rest) :
    step s = .next (setMoves rest s) := by
  simp [step, transaction, passEdge, State.isBusy, hbusy, hmoves]

/-- A run of `j + k` steps is a run of `k` steps from where `j` steps end. -/
theorem run_add {M : Host.Core} {j : Nat} {s u : M.State} (h : M.run j s = .next u) (k : Nat) :
    M.run (j + k) s = M.run k u := by
  induction j generalizing s with
  | zero =>
    obtain rfl : s = u := by simpa [Host.Core.run] using h
    simp
  | succ j ih =>
    rw [Nat.succ_add]
    simp only [Host.Core.run] at h ⊢
    split at h
    · exact ih h
    · cases h
    · cases h

/-- A run of one step. -/
theorem run_one {M : Host.Core} {s u : M.State} (h : M.step s = .next u) : M.run 1 s = .next u := by
  simp [Host.Core.run, h]

/-! ### No meaning stops the machine -/

theorem unlessErr_total (s : State) {body : Host.Outcome State Fault Refusal} (h : ∃ t, body = .next t) :
    ∃ t, unlessErr s body = .next t := by
  unfold unlessErr
  split
  · exact ⟨s, rfl⟩
  · exact h

theorem execAbsorb_total (d : Byte) (s : State) : ∃ t, execAbsorb d s = .next t := by
  apply unlessErr_total
  split
  · exact ⟨_, rfl⟩
  · split
    · exact ⟨_, rfl⟩
    · split <;> exact ⟨_, rfl⟩

theorem execFinal_total (s : State) : ∃ t, execFinal s = .next t := by
  apply unlessErr_total
  split <;> exact ⟨_, rfl⟩

theorem execIllegal_total (s : State) : ∃ t, execIllegal s = .next t := unlessErr_total s ⟨_, rfl⟩

/-- Every instruction has a next state from every state. -/
theorem exec_total (i : Instr) (s : State) : ∃ t, exec i s = .next t := by
  cases i with
  | nop => exact unlessErr_total s ⟨s, rfl⟩
  | init => exact unlessErr_total s ⟨startMessage s, rfl⟩
  | absorb d => exact execAbsorb_total d s
  | final => exact execFinal_total s

theorem accept_total (c : CmdWord) (s : State) : ∃ t, accept c s = .next t := by
  unfold accept
  split
  · exact exec_total _ s
  · exact execIllegal_total s

theorem step_total (s : State) : ∃ t, step s = .next t := by
  unfold step transaction
  split
  · exact ⟨_, rfl⟩
  · split
    · exact exec_total _ _
    · exact accept_total _ _
  · split
    · exact exec_total _ _
    · exact ⟨_, rfl⟩

theorem acceptEdge_total (tm : Timing) (c : CmdWord) (s : State) : ∃ t, acceptEdge tm c s = .next t := by
  unfold acceptEdge
  split
  · exact execIllegal_total s
  · split
    · exact exec_total _ s
    · exact ⟨_, rfl⟩

theorem busyEdge_total (p : InFlight) (s : State) : ∃ t, busyEdge p s = .next t := by
  unfold busyEdge
  split
  · exact exec_total _ _
  · exact ⟨_, rfl⟩

theorem edge_total (tm : Timing) (s : State) : ∃ t, edge tm s = .next t := by
  unfold edge
  split
  · exact ⟨_, rfl⟩
  · split
    · exact busyEdge_total _ s
    · exact acceptEdge_total tm _ _
  · split
    · exact busyEdge_total _ s
    · exact ⟨_, rfl⟩

/-- Settles O29: the CORE's own faults are next states (R212), and no arm of `exec` is refused. -/
theorem theMachineNeverStops : Obligations.TheMachineNeverStops := ⟨exec_total, step_total, edge_total⟩

/-! ### Rotation (R10) -/

/-- Bit `i` of a rotation comes from the right shift when it lies below the wrap, from the left shift otherwise. -/
theorem rotr_getLsbD (x : Word) {n i : Nat} (hn : n < 32) (hi : i < 32) :
    (rotr x n).getLsbD i = x.getLsbD ((i + n) % 32) := by
  have hbits : (rotr x n).getLsbD i = (x.getLsbD (n + i) || !decide (i < 32 - n) && x.getLsbD (i - (32 - n))) := by
    simp [rotr, hi, -BitVec.getLsbD_eq_getElem]
  rw [hbits]
  by_cases hwrap : i < 32 - n
  · rw [Nat.mod_eq_of_lt (by omega), Nat.add_comm i n]
    simp [hwrap]
  · have hsource : (i + n) % 32 = i - (32 - n) := by omega
    have hout : x.getLsbD (n + i) = false := BitVec.getLsbD_of_ge x _ (by omega)
    simp [hwrap, hsource, hout]

/-- Settles O38: the formula is the definition's own, and each bit comes from one of its two shifts. -/
theorem rotationMovesEachBit : Obligations.RotationMovesEachBit :=
  fun x _ _ _ hn hi => ⟨rfl, rotr_getLsbD x hn hi⟩

/-! ### The bytes of the current block, and BLOCK_STEP* one block further -/

/-- The first FILL bytes of BUF with ABSORB's byte in it are the bytes of the block so far and that byte. -/
theorem bufWithByte_take (s : State) (d : Byte) :
    (bufWithByte s d).toList.take (s.fill.toNat + 1) = tailBytes s ++ [d] := by
  have hfill : s.fill.toNat < 64 := s.fill.isLt
  simp [bufWithByte, tailBytes, List.take_add_one, hfill, Vector.toList_set, List.take_set_of_le]

/-- An ABSORB that fills no block appends its byte to the bytes of the current block (R106). -/
theorem tailBytes_storeByte (s : State) (d : Byte) (hfill : s.fill.toNat < 63) :
    tailBytes (storeByte d s) = tailBytes s ++ [d] := by
  have hnext : (storeByte d s).fill.toNat = s.fill.toNat + 1 := by
    rw [storeByte_fill, BitVec.toNat_add]
    simp
    omega
  rw [← bufWithByte_take s d, tailBytes, hnext, storeByte_buf]

/-- With FILL = 63, BUF with ABSORB's byte is the block of the bytes so far and that byte (R106). -/
theorem bufWithByte_eq_blockOf (s : State) (d : Byte) (hfill : s.fill.toNat = 63) :
    bufWithByte s d = blockOf (tailBytes s ++ [d]) := by
  rw [← bufWithByte_take s d, hfill, List.take_of_length_le (by simp), blockOf_toList_eq]

theorem blockSteps_append (n : Nat) (h : HashState) (full blk : List Byte) (hfull : full.length = 64 * n)
    (hblk : blk.length = 64) :
    blockSteps (n + 1) h (full ++ blk) = blockStep (blockSteps n h full) (blockOf blk) := by
  induction n generalizing h full with
  | zero =>
    obtain rfl : full = [] := List.length_eq_zero_iff.mp (by omega)
    simp [blockSteps, List.take_of_length_le, hblk]
  | succ n ih =>
    rw [blockSteps, blockSteps, List.take_append_of_le_length (by omega), List.drop_append_of_le_length (by omega)]
    exact ih _ _ (by simp; omega)

/-- `BLOCK_STEP*` over one block more is one block step more (R103). -/
theorem blockStepStar_append (h : HashState) (full blk : List Byte) (hfull : full.length % 64 = 0)
    (hblk : blk.length = 64) :
    blockStepStar h (full ++ blk) = blockStep (blockStepStar h full) (blockOf blk) := by
  have hcount : (full ++ blk).length / 64 = full.length / 64 + 1 := by simp; omega
  rw [blockStepStar, hcount]
  exact blockSteps_append _ h full blk (by omega) hblk

/-! ### The message a state holds (R103) -/

/-- The CORE is absorbing, ready for a command and without a fault, and has absorbed `m`. -/
structure Absorbed (s : State) (m : List Byte) : Prop where
  idle : s.busy = none
  noErr : s.err = false
  absorbing : s.done = false
  represents : Represents s m

/-- The clauses of `Represents` that speak of a state that is absorbing. -/
theorem represents_of_absorbing {s : State} {m : List Byte} (hdone : s.done = false)
    (hshort : m.length ≤ 2 ^ 61 - 1) (hlen : s.len.toNat = m.length) (hfill : s.fill.toNat = m.length % 64)
    (htail : tailBytes s = m.drop (m.length - m.length % 64))
    (hh : s.h = blockStepStar IV (m.take (m.length - m.length % 64))) : Represents s m where
  short := hshort
  len_eq := hlen
  fill_absorbing _ := hfill
  tail_absorbing _ := htail
  h_absorbing _ := hh
  fill_done h := by simp [hdone] at h
  h_done h := by simp [hdone] at h
  digest_done h := by simp [hdone] at h

/-- What a state holds of a message does not depend on what the host does next. -/
theorem represents_setMoves {s : State} {m : List Byte} (h : Represents s m) (ms : List HostMove) :
    Represents (setMoves ms s) m :=
  ⟨h.short, h.len_eq, h.fill_absorbing, h.tail_absorbing, h.h_absorbing, h.fill_done, h.h_done, h.digest_done⟩

theorem absorbed_setMoves {s : State} {m : List Byte} (h : Absorbed s m) (ms : List HostMove) :
    Absorbed (setMoves ms s) m :=
  ⟨h.idle, h.noErr, h.absorbing, represents_setMoves h.represents ms⟩

/-- INIT leaves the empty message (R104). -/
theorem represents_startMessage (s : State) : Represents (startMessage s) [] :=
  represents_of_absorbing rfl (by decide) rfl rfl rfl rfl

theorem len_succ_toNat {s : State} {m : List Byte} (hrep : Represents s m) (hlen : m.length < 2 ^ 61 - 1) :
    (s.len + 1).toNat = m.length + 1 := by
  rw [BitVec.toNat_add, hrep.len_eq]
  simp
  omega

/-- There is room for one byte more (R106, R213). -/
theorem len_ne_lMax {s : State} {m : List Byte} (hrep : Represents s m) (hlen : m.length < 2 ^ 61 - 1) :
    s.len ≠ lMax := by
  intro hmax
  have hlast : lMax.toNat = m.length := hmax ▸ hrep.len_eq
  exact absurd hlast (Nat.ne_of_gt hlen)

/-- An ABSORB that fills no block appends its byte to the message (R103, R106). -/
theorem represents_storeByte {s : State} {m : List Byte} (hrep : Represents s m) (hdone : s.done = false)
    (hlen : m.length < 2 ^ 61 - 1) (d : Byte) (hfill : s.fill ≠ 63) : Represents (storeByte d s) (m ++ [d]) := by
  have hpos := hrep.fill_absorbing hdone
  have hroom : s.fill.toNat < 63 := by bv_omega
  have hstart : (m ++ [d]).length - (m ++ [d]).length % 64 = m.length - m.length % 64 := by simp; omega
  have hle : m.length - m.length % 64 ≤ m.length := Nat.sub_le _ _
  apply represents_of_absorbing (by simpa using hdone)
  case hshort => simp; omega
  case hlen => simpa using len_succ_toNat hrep hlen
  case hfill =>
    rw [storeByte_fill, BitVec.toNat_add]
    simp
    omega
  case htail =>
    rw [tailBytes_storeByte s d hroom, hrep.tail_absorbing hdone, hstart, List.drop_append_of_le_length hle]
  case hh => rw [storeByte_h, hrep.h_absorbing hdone, hstart, List.take_append_of_le_length hle]

/-- An ABSORB that fills the block appends its byte to the message too: the block steps done are then those over the
whole message (R103, R106). -/
theorem represents_storeLastByte {s : State} {m : List Byte} (hrep : Represents s m) (hdone : s.done = false)
    (hlen : m.length < 2 ^ 61 - 1) (d : Byte) (hfill : s.fill = 63) :
    Represents (storeLastByte d s) (m ++ [d]) := by
  have hfull : s.fill.toNat = 63 := by simp [hfill]
  have hpos : m.length % 64 = 63 := by rw [← hrep.fill_absorbing hdone, hfull]
  have hwhole : (m ++ [d]).length % 64 = 0 := by simp; omega
  have hsplit : m ++ [d] = m.take (m.length - m.length % 64) ++ (m.drop (m.length - m.length % 64) ++ [d]) := by
    rw [← List.append_assoc, List.take_append_drop]
  apply represents_of_absorbing (by simpa using hdone)
  case hshort => simp; omega
  case hlen => simpa using len_succ_toNat hrep hlen
  case hfill => rw [storeLastByte_fill, hwhole]; rfl
  case htail => rw [hwhole, Nat.sub_zero, List.drop_length]; rfl
  case hh =>
    rw [storeLastByte_h, bufWithByte_eq_blockOf s d hfull, hrep.tail_absorbing hdone, hrep.h_absorbing hdone, hwhole,
      Nat.sub_zero, List.take_length, hsplit]
    exact (blockStepStar_append _ _ _ (by simp; omega) (by simp; omega)).symm

theorem exec_init_of_noErr {s : State} (herr : s.err = false) : exec .init s = .next (startMessage s) := by
  simp [exec, execInit, unlessErr, herr]

theorem exec_final_of_absorbing {s : State} (herr : s.err = false) (hdone : s.done = false) :
    exec .final s = .next (finishMessage s) := by
  simp [exec, execFinal, unlessErr, herr, hdone]

/-- ABSORB's legal effect (R106), by whether the byte fills the block. -/
theorem exec_absorb_of_absorbing {s : State} (herr : s.err = false) (hdone : s.done = false) (hroom : s.len ≠ lMax)
    (d : Byte) : exec (.absorb d) s = .next (if s.fill = 63 then storeLastByte d s else storeByte d s) := by
  simp only [exec, execAbsorb, unlessErr, herr, hdone, hroom, Bool.false_eq_true, if_false]
  split <;> rfl

/-- ABSORB appends its byte to the message the state holds, while the message is short enough (R103, R106). -/
theorem exec_absorb_of_absorbed {s : State} {m : List Byte} (h : Absorbed s m) (hlen : m.length < 2 ^ 61 - 1)
    (d : Byte) :
    ∃ u, exec (.absorb d) s = .next u ∧ Absorbed u (m ++ [d]) ∧ u.moves = s.moves ∧ u.readings = s.readings := by
  obtain ⟨hidle, herr, hdone, hrep⟩ := h
  rw [exec_absorb_of_absorbing herr hdone (len_ne_lMax hrep hlen) d]
  split
  case isTrue hfill =>
    exact ⟨_, rfl, ⟨hidle, herr, hdone, represents_storeLastByte hrep hdone hlen d hfill⟩, rfl, rfl⟩
  case isFalse hfill =>
    exact ⟨_, rfl, ⟨hidle, herr, hdone, represents_storeByte hrep hdone hlen d hfill⟩, rfl, rfl⟩

/-- FINAL's digest is a function of the message: two states that hold the same one end in the same digest. -/
theorem finishMessage_digest_eq {s s' : State} {m : List Byte} (h : Absorbed s m) (h' : Absorbed s' m) :
    (finishMessage s).digest = (finishMessage s').digest := by
  have htail : tailBytes s = tailBytes s' :=
    (h.represents.tail_absorbing h.absorbing).trans (h'.represents.tail_absorbing h'.absorbing).symm
  have hh : s.h = s'.h := (h.represents.h_absorbing h.absorbing).trans (h'.represents.h_absorbing h'.absorbing).symm
  have hlen : s.len = s'.len := BitVec.eq_of_toNat_eq (h.represents.len_eq.trans h'.represents.len_eq.symm)
  rw [finishMessage_digest, finishMessage_digest, htail, hh, hlen]

/-- After FINAL the digest is a result (R239). -/
theorem resultValid_finishMessage {s : State} {m : List Byte} (h : Absorbed s m) (ms : List HostMove) :
    (setMoves ms (finishMessage s)).resultValid = true := by
  simp [State.resultValid, State.isBusy, h.idle, h.noErr]

/-! ### Hashing a message -/

/-- The ABSORBs of `bytes` append these to the message, one byte a step. -/
theorem run_absorbMoves (bytes : List Byte) {s : State} {m : List Byte} {rest : List HostMove} (h : Absorbed s m)
    (hlen : (m ++ bytes).length ≤ 2 ^ 61 - 1) (hmoves : s.moves = absorbMoves bytes ++ rest) :
    ∃ u : State, core.run bytes.length s = .next u ∧ Absorbed u (m ++ bytes) ∧ u.moves = rest ∧
      u.readings = s.readings := by
  induction bytes generalizing s m with
  | nil => exact ⟨s, rfl, by simpa using h, by simpa [absorbMoves] using hmoves, rfl⟩
  | cons d bytes ih =>
    have hmoves' : s.moves = present (.absorb d) :: (absorbMoves bytes ++ rest) := by simpa [absorbMoves] using hmoves
    obtain ⟨v, hexec, hv, hvmoves, hvread⟩ :=
      exec_absorb_of_absorbed (absorbed_setMoves h (absorbMoves bytes ++ rest)) (by simp at hlen; omega) d
    obtain ⟨u, hrun, hu, humoves, huread⟩ := ih hv (by simpa using hlen) hvmoves
    refine ⟨u, ?_, by simpa using hu, humoves, huread.trans hvread⟩
    have hstep : step s = .next v := (step_present h.idle hmoves').trans hexec
    rw [List.length_cons, Nat.add_comm, run_add (run_one (M := core) hstep)]
    exact hrun

/-- INIT, the ABSORBs of `m`, FINAL and WAIT (R76) take `L + 3` steps, from any state with ERR = 0 and no command in
flight: the state of FINAL, run where the CORE has absorbed `m`. -/
theorem run_hashMoves {s : State} {m : List Byte} {rest : List HostMove} (hbusy : s.busy = none)
    (herr : s.err = false) (hlen : m.length ≤ 2 ^ 61 - 1) (hmoves : s.moves = hashMoves m ++ rest) :
    ∃ u : State, Absorbed u m ∧ u.readings = s.readings ∧
      core.run (m.length + 3) s = .next (setMoves rest (finishMessage u)) := by
  have hmoves' : s.moves = present .init :: (absorbMoves m ++ present .final :: .wait :: rest) := by
    simpa [hashMoves] using hmoves
  have hinit := (step_present hbusy hmoves').trans (exec_init_of_noErr (by simpa using herr))
  obtain ⟨u, hrun, hu, humoves, huread⟩ :=
    run_absorbMoves m (s := startMessage (setMoves (absorbMoves m ++ present .final :: .wait :: rest) s))
      ⟨hbusy, herr, rfl, represents_startMessage _⟩ hlen rfl
  have hfinal := (step_present hu.idle humoves).trans (exec_final_of_absorbing hu.noErr hu.absorbing)
  have hwait := step_wait (s := finishMessage (setMoves (.wait :: rest) u)) hu.idle rfl
  refine ⟨setMoves (.wait :: rest) u, absorbed_setMoves hu _, huread, ?_⟩
  rw [show m.length + 3 = 1 + (m.length + (1 + 1)) by omega, run_add (run_one (M := core) hinit), run_add hrun,
    run_add (run_one (M := core) hfinal)]
  exact run_one (M := core) hwait

/-- The read addresses of DIGEST and HEX show DIGEST alone (R55, R56). -/
theorem rdRead_eq_of_digest_eq {s s' : State} (hbusy : s.busy = none) (hbusy' : s'.busy = none)
    (hdigest : s.digest = s'.digest) {a : Byte} (hfirst : 0x20 ≤ a) (hlast : a ≤ 0x7F) : rdRead a s = rdRead a s' := by
  have hge : 0x20 ≤ a.toNat := hfirst
  have hle : a.toNat ≤ 0x7F := hlast
  rw [rdRead_of_idle hbusy, rdRead_of_idle hbusy', rdIdle, rdIdle]
  simp [hdigest, show a.toNat ≠ 0 by omega, show a.toNat ≠ 1 by omega, show a.toNat ≠ 2 by omega,
    show ¬(8 ≤ a.toNat ∧ a.toNat ≤ 15) by omega]

/-- Settles O55: after the ABSORBs both states hold the message, and FINAL's digest is a function of the message. -/
theorem digestDependsOnTheMessageOnly : Obligations.DigestDependsOnTheMessageOnly := by
  intro s s' t t' m rest rest' hbusy hbusy' herr herr' hlen hmoves hmoves' hrun hrun'
  obtain ⟨u, hu, -, hend⟩ := run_hashMoves hbusy herr hlen hmoves
  obtain ⟨u', hu', -, hend'⟩ := run_hashMoves hbusy' herr' hlen hmoves'
  obtain rfl := next_inj.mp (hend.symm.trans hrun)
  obtain rfl := next_inj.mp (hend'.symm.trans hrun')
  have hidle : (setMoves rest (finishMessage u)).busy = none := hu.idle
  have hidle' : (setMoves rest' (finishMessage u')).busy = none := hu'.idle
  have hdigest : (setMoves rest (finishMessage u)).digest = (setMoves rest' (finishMessage u')).digest := by
    simpa using finishMessage_digest_eq hu hu'
  exact ⟨hdigest, resultValid_finishMessage hu rest, resultValid_finishMessage hu' rest',
    fun _ hfirst hlast => rdRead_eq_of_digest_eq hidle hidle' hdigest hfirst hlast⟩

end Sys2Proof.Machine

namespace Sys2Proof.Machine

/-! ### What a step or an edge does to the registers -/

/-- The writes an accepted word, or the completion of a command, can make in the state `r`, with their guards (R104 to
R107, R212, R217). `runs i` says that the command is `i`; an illegal word runs none. -/
inductive Effect (runs : Instr → Prop) (r : State) : State → Prop
  | unchanged : Effect runs r r
  | faulted {c : Cause} (herr : r.err = false) (hcause : c ≠ .none) : Effect runs r (raiseFault c r)
  | started (hruns : runs .init) (herr : r.err = false) : Effect runs r (startMessage r)
  | stored {d : Byte} (hruns : runs (.absorb d)) (herr : r.err = false) (hdone : r.done = false)
      (hroom : r.len ≠ lMax) (hfill : r.fill ≠ 63) : Effect runs r (storeByte d r)
  | filled {d : Byte} (hruns : runs (.absorb d)) (herr : r.err = false) (hdone : r.done = false)
      (hroom : r.len ≠ lMax) (hfill : r.fill = 63) : Effect runs r (storeLastByte d r)
  | finished (hruns : runs .final) (herr : r.err = false) (hdone : r.done = false) : Effect runs r (finishMessage r)

theorem exec_effect {runs : Instr → Prop} {i : Instr} {r t : State} (hruns : runs i) (h : exec i r = .next t) :
    Effect runs r t := by
  cases i with
  | nop =>
    obtain rfl := execNop_cases h
    exact .unchanged
  | init =>
    obtain ⟨-, rfl⟩ | ⟨herr, rfl⟩ := execInit_cases h
    · exact .unchanged
    · exact .started hruns herr
  | absorb d =>
    obtain ⟨-, rfl⟩ | ⟨herr, -, rfl⟩ | ⟨herr, -, -, rfl⟩ | ⟨herr, hdone, hroom, hfill, rfl⟩ |
      ⟨herr, hdone, hroom, hfill, rfl⟩ := execAbsorb_cases h
    · exact .unchanged
    · exact .faulted herr (by decide)
    · exact .faulted herr (by decide)
    · exact .filled hruns herr hdone hroom hfill
    · exact .stored hruns herr hdone hroom hfill
  | final =>
    obtain ⟨-, rfl⟩ | ⟨herr, -, rfl⟩ | ⟨herr, hdone, rfl⟩ := execFinal_cases h
    · exact .unchanged
    · exact .faulted herr (by decide)
    · exact .finished hruns herr hdone

theorem execIllegal_effect {runs : Instr → Prop} {r t : State} (h : execIllegal r = .next t) : Effect runs r t := by
  obtain ⟨-, rfl⟩ | ⟨herr, rfl⟩ := execIllegal_cases h
  · exact .unchanged
  · exact .faulted herr (by decide)

/-- No command touches BUSY. -/
theorem Effect.busy_eq {runs : Instr → Prop} {r t : State} (h : Effect runs r t) : t.busy = r.busy := by
  cases h <;> rfl

/-- A step is a reset, or its effect takes place in a state with the registers of the first one. -/
theorem step_effect {s t : State} (h : step s = .next t) :
    (s.moves.head? = some .reset ∧ ∃ r, t = resetEdge r) ∨
    ∃ r, r.registers = s.registers ∧ Effect s.Runs r t := by
  obtain ⟨rest, hmoves, rfl⟩ | ⟨hrst, p, hbusy, hexec⟩ | ⟨hbusy, c, rest, hmoves, haccept⟩ | ⟨-, -, -, rfl⟩ :=
    step_cases h
  · exact .inl ⟨by simp [hmoves], _, rfl⟩
  · exact .inr ⟨_, release_registers s, exec_effect (.inr ⟨hrst, p, hbusy, rfl⟩) hexec⟩
  · refine .inr ⟨_, setMoves_registers rest s, ?_⟩
    obtain ⟨i, hdecode, hexec⟩ | ⟨_, -, hexec⟩ := accept_cases haccept
    · exact exec_effect (.inl ⟨hbusy, c, rest, hmoves, hdecode⟩) hexec
    · exact execIllegal_effect hexec
  · exact .inr ⟨_, passEdge_registers s, .unchanged⟩

/-! ### The invariant of the registers -/

/-- The invariant speaks of the registers alone. -/
theorem inv_of_registers_eq {r s : State} (heq : r.registers = s.registers) (h : s.Inv) : r.Inv := by
  simp only [State.registers, Registers.mk.injEq] at heq
  obtain ⟨hdone, herr, hcause, hlen, hfill, -, hh, hdigest⟩ := heq
  obtain ⟨hle, hpos, hzero, hserial, hnone⟩ := h
  constructor
  · rwa [hlen]
  · rwa [hdone, hfill, hlen]
  · rwa [hdone, hfill]
  · rwa [hdone, hdigest, hh]
  · rwa [herr, hcause]

theorem inv_resetEdge (r : State) : (resetEdge r).Inv := by
  constructor <;> simp [lMax]

theorem inv_raiseFault {r : State} (h : r.Inv) {c : Cause} (hcause : c ≠ .none) : (raiseFault c r).Inv where
  len_le := h.len_le
  fill_absorbing := h.fill_absorbing
  fill_done := h.fill_done
  digest_done := h.digest_done
  cause_none := by simp [hcause]

theorem inv_startMessage {r : State} (h : r.Inv) : (startMessage r).Inv where
  len_le := by simp [lMax]
  fill_absorbing _ := by simp
  fill_done hdone := by simp at hdone
  digest_done hdone := by simp at hdone
  cause_none := h.cause_none

/-- One byte more stays within `L_MAX` while LEN has not reached it (R26). -/
theorem len_succ_le_lMax {r : State} (h : r.Inv) (hroom : r.len ≠ lMax) : r.len + 1 ≤ lMax := by
  have hle := h.len_le
  unfold lMax at *
  bv_omega

theorem len_succ_toNat_of_inv {r : State} (h : r.Inv) : (r.len + 1).toNat = r.len.toNat + 1 := by
  have hle := h.len_le
  unfold lMax at hle
  bv_omega

theorem inv_storeByte {r : State} (h : r.Inv) (d : Byte) (hdone : r.done = false) (hroom : r.len ≠ lMax)
    (hfill : r.fill ≠ 63) : (storeByte d r).Inv where
  len_le := len_succ_le_lMax h hroom
  fill_absorbing _ := by
    have hpos := h.fill_absorbing hdone
    have hnext : (r.fill + 1).toNat = r.fill.toNat + 1 := by bv_omega
    have hlast := (r.fill + 1).isLt
    rw [storeByte_fill, storeByte_len, len_succ_toNat_of_inv h, hnext]
    omega
  fill_done hd := by simp [hdone] at hd
  digest_done hd := by simp [hdone] at hd
  cause_none := h.cause_none

theorem inv_storeLastByte {r : State} (h : r.Inv) (d : Byte) (hdone : r.done = false) (hroom : r.len ≠ lMax)
    (hfill : r.fill = 63) : (storeLastByte d r).Inv where
  len_le := len_succ_le_lMax h hroom
  fill_absorbing _ := by
    have hpos : 63 = r.len.toNat % 64 := by simpa [hfill] using h.fill_absorbing hdone
    rw [storeLastByte_fill, storeLastByte_len, len_succ_toNat_of_inv h]
    simp
    omega
  fill_done hd := by simp [hdone] at hd
  digest_done hd := by simp [hdone] at hd
  cause_none := h.cause_none

theorem inv_finishMessage {r : State} (h : r.Inv) : (finishMessage r).Inv where
  len_le := h.len_le
  fill_absorbing hd := by simp at hd
  fill_done _ := rfl
  digest_done _ := rfl
  cause_none := h.cause_none

theorem Effect.keeps_inv {runs : Instr → Prop} {r t : State} (heffect : Effect runs r t) (h : r.Inv) : t.Inv := by
  cases heffect with
  | unchanged => exact h
  | faulted _ hcause => exact inv_raiseFault h hcause
  | started => exact inv_startMessage h
  | stored _ _ hdone hroom hfill => exact inv_storeByte h _ hdone hroom hfill
  | filled _ _ hdone hroom hfill => exact inv_storeLastByte h _ hdone hroom hfill
  | finished => exact inv_finishMessage h

/-- Settles O49: a reset establishes the invariant, and every effect a step can have keeps it. -/
theorem stepKeepsTheRegisterInvariant : Obligations.StepKeepsTheRegisterInvariant := by
  intro s t hinv hstep
  obtain ⟨-, r, rfl⟩ | ⟨r, hr, heffect⟩ := step_effect hstep
  · exact inv_resetEdge r
  · exact heffect.keeps_inv (inv_of_registers_eq hr hinv)

/-! ### The invariants at an edge of the clock -/

theorem flightInv_of_idle {s : State} (h : s.busy = none) : s.FlightInv :=
  fun p hp => by simp [h] at hp

/-- A command that takes more than one cycle was accepted with ERR = 0 and does not fault (R236). -/
theorem accepted_of_one_lt_latency {tm : Timing} {i : Instr} {s : State} (h : 1 < latency tm i s) :
    s.err = false ∧ commandFault i s = none := by
  unfold latency at h
  split at h
  case isTrue => omega
  case isFalse hfault => simpa using hfault

theorem flightInv_occupy {tm : Timing} {i : Instr} {s : State} (h : 1 < latency tm i s) :
    (occupy { instr := i, cyclesLeft := latency tm i s - 1 } s).FlightInv := by
  intro p hp
  obtain rfl := Option.some.inj hp
  obtain ⟨herr, hfault⟩ := accepted_of_one_lt_latency h
  exact ⟨herr, hfault, by simp only; omega⟩

/-- The fault a command raises is decided by the registers alone. -/
theorem commandFault_of_registers_eq {r s : State} (heq : r.registers = s.registers) (i : Instr) :
    commandFault i r = commandFault i s := by
  simp only [State.registers, Registers.mk.injEq] at heq
  obtain ⟨hdone, -, -, hlen, -⟩ := heq
  simp only [commandFault, hdone, hlen]

theorem flightInv_tick {p : InFlight} {s : State} (hbusy : s.busy = some p) (hflight : s.FlightInv)
    (hmore : ¬p.cyclesLeft ≤ 1) : (tick p s).FlightInv := by
  obtain ⟨herr, hfault, -⟩ := hflight p hbusy
  intro q hq
  rw [tick_busy] at hq
  obtain rfl := Option.some.inj hq
  refine ⟨by simpa [tick] using herr, ?_, by simp only; omega⟩
  rw [commandFault_of_registers_eq (tick_registers p s), hfault]

/-- An edge with a command in flight keeps both invariants: it completes the command or counts one cycle. -/
theorem busyEdge_keeps_invariants {p : InFlight} {s t : State} (hbusy : s.busy = some p) (hinv : s.Inv)
    (hflight : s.FlightInv) (h : busyEdge p s = .next t) : t.Inv ∧ t.FlightInv := by
  unfold busyEdge at h
  split at h
  case isTrue =>
    have heffect : Effect (fun _ => True) (release (passEdge s)) t := exec_effect trivial h
    exact ⟨heffect.keeps_inv (inv_of_registers_eq (by simp) hinv), flightInv_of_idle heffect.busy_eq⟩
  case isFalse hmore =>
    obtain rfl := next_inj.mp h
    exact ⟨inv_of_registers_eq (tick_registers p s) hinv, flightInv_tick hbusy hflight hmore⟩

/-- The acceptance edge of a word keeps both invariants: the word takes its effect, or its command is in flight. -/
theorem acceptEdge_keeps_invariants {tm : Timing} {c : CmdWord} {s t : State} (hbusy : s.busy = none) (hinv : s.Inv)
    (h : acceptEdge tm c s = .next t) : t.Inv ∧ t.FlightInv := by
  have of_effect (heffect : Effect (fun _ => True) s t) : t.Inv ∧ t.FlightInv :=
    ⟨heffect.keeps_inv hinv, flightInv_of_idle (heffect.busy_eq.trans hbusy)⟩
  obtain ⟨_, -, hexec⟩ | ⟨_, -, -, hexec⟩ | ⟨i, -, hlatency, rfl⟩ := acceptEdge_cases h
  · exact of_effect (execIllegal_effect hexec)
  · exact of_effect (exec_effect trivial hexec)
  · exact ⟨inv_of_registers_eq (occupy_registers _ s) hinv, flightInv_occupy hlatency⟩

/-- Settles O50: by what the edge does, each of the four kinds by its own lemma. -/
theorem edgeKeepsTheInvariants : Obligations.EdgeKeepsTheInvariants := by
  intro tm s t hinv hflight hedge
  obtain ⟨_, -, rfl⟩ | ⟨-, p, hbusy, hp⟩ | ⟨hbusy, c, rest, -, haccept⟩ | ⟨hbusy, -, -, rfl⟩ := edge_cases hedge
  · exact ⟨inv_resetEdge _, flightInv_of_idle (resetEdge_busy _)⟩
  · exact busyEdge_keeps_invariants hbusy hinv hflight hp
  · have hinv' : (setMoves rest s).Inv := inv_of_registers_eq (setMoves_registers rest s) hinv
    exact acceptEdge_keeps_invariants (s := setMoves rest s) hbusy hinv' haccept
  · exact ⟨inv_of_registers_eq (passEdge_registers s) hinv, flightInv_of_idle ((passEdge_busy s).trans hbusy)⟩

/-! ### Which step changes DIGEST, DONE and LEN -/

/-- Settles O18: of the effects of a step, FINAL's alone writes DIGEST. -/
theorem digestChangesOnlyAtFinalOrReset : Obligations.DigestChangesOnlyAtFinalOrReset := by
  intro s t hstep hchange
  obtain ⟨hreset, -⟩ | ⟨r, hr, heffect⟩ := step_effect hstep
  · exact .inr hreset
  · have heq : r.digest = s.digest := congrArg Registers.digest hr
    rw [← heq] at hchange
    cases heffect with
    | finished hruns => exact .inl hruns
    | unchanged | faulted | started | stored | filled => exact absurd rfl hchange

/-- Settles O19: of the effects of a step, INIT's clears DONE, FINAL's sets it, and the others leave it. -/
theorem doneChangesOnlyAtInitFinalOrReset : Obligations.DoneChangesOnlyAtInitFinalOrReset := by
  intro s t hstep hchange
  obtain ⟨hreset, r, rfl⟩ | ⟨r, hr, heffect⟩ := step_effect hstep
  · exact .inr (.inr ⟨hreset, rfl⟩)
  · have heq : r.done = s.done := congrArg Registers.done hr
    rw [← heq] at hchange
    cases heffect with
    | started hruns => exact .inl ⟨hruns, rfl⟩
    | finished hruns => exact .inr (.inl ⟨hruns, rfl⟩)
    | unchanged | faulted | stored | filled => exact absurd rfl hchange

/-- Settles O20: of the effects of a step, the two of ABSORB add one to LEN, INIT's clears it, and the others leave
it. -/
theorem lenCountsTheAbsorbedBytes : Obligations.LenCountsTheAbsorbedBytes := by
  intro s t hstep hchange
  obtain ⟨hreset, r, rfl⟩ | ⟨r, hr, heffect⟩ := step_effect hstep
  · exact .inr (.inr ⟨hreset, rfl⟩)
  · have heq : r.len = s.len := congrArg Registers.len hr
    rw [← heq] at hchange ⊢
    cases heffect with
    | stored hruns => exact .inl ⟨_, hruns, rfl⟩
    | filled hruns => exact .inl ⟨_, hruns, rfl⟩
    | started hruns => exact .inr (.inl ⟨hruns, rfl⟩)
    | unchanged | faulted | finished => exact absurd rfl hchange

/-! ### Each kind of step -/

theorem step_reset {s : State} {rest : List HostMove} (hmoves : s.moves = .reset :: rest) :
    step s = .next (resetEdge (setMoves rest s)) := by
  simp [step, transaction, hmoves]

theorem step_busy {s : State} {p : InFlight} (hrst : s.moves.head? ≠ some .reset) (hbusy : s.busy = some p) :
    step s = exec p.instr (release s) := by
  unfold step transaction
  split <;> simp_all [complete]

theorem step_pass {s : State} (hbusy : s.busy = none) (hrst : s.moves.head? ≠ some .reset)
    (hcmd : ∀ c, s.moves.head? ≠ some (.command c)) : step s = .next (passEdge s) := by
  unfold step transaction
  split <;> simp_all

/-! ### The hidden state (R29, R232) -/

/-- The state with the hidden `W`, `a..h`, `RND` and the draw counter at their values after reset. -/
def eraseHidden (s : State) : State :=
  { s with w := State.reset.w, vars := State.reset.vars, rnd := State.reset.rnd, draw := State.reset.draw }

@[simp] theorem eraseHidden_busy (s : State) : (eraseHidden s).busy = s.busy := rfl
@[simp] theorem eraseHidden_moves (s : State) : (eraseHidden s).moves = s.moves := rfl

theorem eraseHidden_setMoves (ms : List HostMove) (s : State) :
    eraseHidden (setMoves ms s) = setMoves ms (eraseHidden s) := rfl

/-- What is left of a state without its hidden part: the registers, BUSY, the host's moves and its readings. -/
theorem eraseHidden_eq_iff {s s' : State} :
    eraseHidden s = eraseHidden s' ↔
      s.registers = s'.registers ∧ s.busy = s'.busy ∧ s.moves = s'.moves ∧ s.readings = s'.readings := by
  simp only [eraseHidden, State.registers, State.mk.injEq, Registers.mk.injEq]
  tauto

/-- The outcome with the hidden state of its next state erased. -/
def eraseOutcome : Host.Outcome State Fault Refusal → Host.Outcome State Fault Refusal
  | .next s => .next (eraseHidden s)
  | .fault r => .fault r
  | .refused r => .refused r

/-- What `f` leaves behind, hidden state apart, is a function of the state without its hidden part. -/
def HiddenBlind (f : State → Host.Outcome State Fault Refusal) : Prop :=
  ∀ s, eraseOutcome (f s) = eraseOutcome (f (eraseHidden s))

theorem hiddenBlind_next {u : State → State} (hu : ∀ s, eraseHidden (u s) = eraseHidden (u (eraseHidden s))) :
    HiddenBlind fun s => .next (u s) :=
  fun s => congrArg Host.Outcome.next (hu s)

theorem hiddenBlind_ite {P : State → Prop} [DecidablePred P] {f g : State → Host.Outcome State Fault Refusal}
    (hP : ∀ s, P (eraseHidden s) ↔ P s) (hf : HiddenBlind f) (hg : HiddenBlind g) :
    HiddenBlind fun s => if P s then f s else g s := by
  intro s
  by_cases h : P s
  · simpa [h, hP] using hf s
  · simpa [h, hP] using hg s

theorem hiddenBlind_unlessErr {f : State → Host.Outcome State Fault Refusal} (hf : HiddenBlind f) :
    HiddenBlind fun s => unlessErr s (f s) :=
  hiddenBlind_ite (P := fun s => s.err = true) (fun _ => .rfl) (hiddenBlind_next fun _ => rfl) hf

theorem hiddenBlind_raiseFault (c : Cause) : HiddenBlind fun s => .next (raiseFault c s) :=
  hiddenBlind_next fun _ => rfl

/-- No command reads the hidden state: what it leaves behind it computes from the registers (R232). -/
theorem hiddenBlind_exec (i : Instr) : HiddenBlind (exec i) := by
  cases i with
  | nop => exact hiddenBlind_unlessErr (hiddenBlind_next fun _ => rfl)
  | init => exact hiddenBlind_unlessErr (hiddenBlind_next fun _ => rfl)
  | absorb d =>
    have hstore : HiddenBlind fun s => if s.fill = 63 then .next (storeLastByte d s) else .next (storeByte d s) :=
      hiddenBlind_ite (fun _ => .rfl) (hiddenBlind_next fun _ => rfl) (hiddenBlind_next fun _ => rfl)
    have hroom : HiddenBlind fun s => if s.len = lMax then .next (raiseFault .lenOverflow s) else
        if s.fill = 63 then .next (storeLastByte d s) else .next (storeByte d s) :=
      hiddenBlind_ite (fun _ => .rfl) (hiddenBlind_raiseFault .lenOverflow) hstore
    exact hiddenBlind_unlessErr (hiddenBlind_ite (fun _ => .rfl) (hiddenBlind_raiseFault .protocol) hroom)
  | final =>
    exact hiddenBlind_unlessErr
      (hiddenBlind_ite (fun _ => .rfl) (hiddenBlind_raiseFault .protocol) (hiddenBlind_next fun _ => rfl))

theorem hiddenBlind_accept (c : CmdWord) : HiddenBlind (accept c) := by
  unfold accept
  split
  · exact hiddenBlind_exec _
  · exact hiddenBlind_unlessErr (hiddenBlind_raiseFault .illegal)

/-- With BUSY = 0 a read shows nothing of the hidden state. -/
theorem rdRead_eraseHidden {s : State} (hbusy : s.busy = none) (a : Byte) : rdRead a (eraseHidden s) = rdRead a s := by
  rw [rdRead_of_idle hbusy, rdRead_of_idle (s := eraseHidden s) hbusy]
  rfl

theorem passEdge_eraseHidden {s : State} (hbusy : s.busy = none) :
    passEdge (eraseHidden s) = eraseHidden (passEdge s) := by
  cases hmoves : s.moves with
  | nil => simp [passEdge, hmoves]
  | cons m rest =>
    cases m with
    | command | reset => simp [passEdge, hmoves]
    | wait | idle => simp [passEdge, State.isBusy, hmoves, hbusy, eraseHidden_setMoves]
    | read a =>
      simp only [passEdge, eraseHidden_moves, hmoves, takeReading, rdRead_eraseHidden hbusy]
      rfl

theorem hiddenBlind_step : HiddenBlind step := by
  intro s
  by_cases hrst : s.moves.head? = some .reset
  · obtain ⟨rest, hmoves⟩ := List.head?_eq_some_iff.mp hrst
    rw [step_reset hmoves, step_reset (s := eraseHidden s) hmoves]
    rfl
  cases hbusy : s.busy with
  | some p =>
    rw [step_busy hrst hbusy, step_busy (s := eraseHidden s) hrst hbusy]
    exact hiddenBlind_exec p.instr (release s)
  | none =>
    by_cases hcmd : ∃ c, s.moves.head? = some (.command c)
    · obtain ⟨c, hc⟩ := hcmd
      obtain ⟨rest, hmoves⟩ := List.head?_eq_some_iff.mp hc
      rw [step_command hbusy hmoves, step_command (s := eraseHidden s) hbusy hmoves]
      exact hiddenBlind_accept c (setMoves rest s)
    · rw [step_pass hbusy hrst (not_exists.mp hcmd), step_pass (s := eraseHidden s) hbusy hrst (not_exists.mp hcmd),
        passEdge_eraseHidden hbusy]
      rfl

/-- Settles O21: a step is blind to the hidden state, and so is a read with BUSY = 0. -/
theorem hiddenStateNeverReachesTheVisible : Obligations.HiddenStateNeverReachesTheVisible := by
  intro s s' t hregs hbusy hmoves hreadings hstep
  obtain ⟨t', hstep'⟩ := step_total s'
  have herase : eraseHidden s = eraseHidden s' := eraseHidden_eq_iff.mpr ⟨hregs, hbusy, hmoves, hreadings⟩
  have houtcome : eraseOutcome (step s') = eraseOutcome (step s) := by
    rw [hiddenBlind_step s', hiddenBlind_step s, herase]
  have hnext : eraseHidden t' = eraseHidden t := by
    rw [hstep, hstep'] at houtcome
    exact next_inj.mp houtcome
  obtain ⟨hregs', hbusy', hmoves', hreadings'⟩ := eraseHidden_eq_iff.mp hnext
  refine ⟨t', hstep', hregs', hbusy', hmoves', hreadings', fun hidle a => ?_⟩
  rw [← rdRead_eraseHidden (hbusy'.trans hidle), ← rdRead_eraseHidden hidle, hnext]

/-! ### The read port: LEN and STATUS -/

/-- The eight LEN bytes are adjacent pieces of LEN (R37). -/
theorem lenByte_append (s : State) :
    lenByte s 0 ++ lenByte s 1 ++ lenByte s 2 ++ lenByte s 3 ++ lenByte s 4 ++ lenByte s 5 ++ lenByte s 6 ++
      lenByte s 7 = s.len := by
  change s.len.extractLsb' 56 8 ++ s.len.extractLsb' 48 8 ++ s.len.extractLsb' 40 8 ++ s.len.extractLsb' 32 8 ++
    s.len.extractLsb' 24 8 ++ s.len.extractLsb' 16 8 ++ s.len.extractLsb' 8 8 ++ s.len.extractLsb' 0 8 = s.len
  iterate 7 rw [BitVec.extractLsb'_append_extractLsb'_eq_extractLsb' (by decide)]
  exact BitVec.extractLsb'_eq_self

/-- The top byte of a LEN up to `L_MAX` (R37). -/
theorem lenByte_zero_le {s : State} (hle : s.len ≤ lMax) : lenByte s 0 ≤ 0x1F := by
  have hnat : s.len.toNat ≤ 2 ^ 61 - 1 := hle
  rw [BitVec.le_def, lenByte, BitVec.extractLsb'_toNat, Nat.shiftRight_eq_div_pow]
  simp
  omega

/-- Settles O35: with BUSY = 0 the addresses read the LEN bytes, in order. -/
theorem lenReadsBigEndian : Obligations.LenReadsBigEndian := by
  intro s hbusy
  simp only [rdRead_of_idle hbusy]
  exact ⟨lenByte_append s, lenByte_zero_le⟩

/-- The three flags in STATUS (R34). -/
theorem statusByte_flags (s : State) :
    (statusByte s).getLsbD 0 = s.busy.isSome ∧ (statusByte s).getLsbD 1 = s.done ∧
    (statusByte s).getLsbD 2 = s.err := by
  rw [statusByte_eq, ← State.isBusy]
  cases s.err <;> cases s.done <;> cases s.isBusy <;> decide

/-- STATUS is below 8, so its bits from 3 on are 0 (R34). -/
theorem statusByte_reserved (s : State) {b : Nat} (hb : 3 ≤ b) : (statusByte s).getLsbD b = false := by
  have herr := Bool.toNat_le s.err
  have hdone := Bool.toNat_le s.done
  have hbusy := Bool.toNat_le s.isBusy
  have hsmall : 4 * s.err.toNat + 2 * s.done.toNat + s.isBusy.toNat < 2 ^ b :=
    lt_of_lt_of_le (by omega : _ < 2 ^ 3) (Nat.pow_le_pow_right (by decide) hb)
  rw [statusByte_eq, BitVec.getLsbD_ofNat, Nat.testBit_lt_two_pow hsmall, Bool.and_false]

theorem rstPin_eq_true_iff (s : State) : rstPin s = true ↔ s.moves.head? = some .reset := by
  unfold rstPin
  split
  case h_1 hmoves => simp [hmoves]
  case h_2 hmoves => simpa using head_ne_of_forall hmoves

theorem cmdReady_eq_true_iff (s : State) :
    cmdReady s = true ↔ s.busy = none ∧ s.moves.head? ≠ some .reset := by
  simp [cmdReady, State.isBusy, ← rstPin_eq_true_iff]

/-- Settles O34: address 0x00 shows STATUS at any time, and the bits of STATUS are the three flags. -/
theorem statusReadsAtAnyTime : Obligations.StatusReadsAtAnyTime := by
  intro s
  rw [rdRead_status]
  obtain ⟨hbusy, hdone, herr⟩ := statusByte_flags s
  exact ⟨hbusy, hdone, herr, fun _ => statusByte_reserved s, rfl, rfl, cmdReady_eq_true_iff s⟩

end Sys2Proof.Machine

namespace Sys2Proof.Machine

/-! ### The read port: the map with BUSY = 0, by range (20_memory.md R55 to R57) -/

/-- STATUS as a number while no command is in flight (R34). -/
theorem statusByte_toNat_of_idle {s : State} (hbusy : s.busy = none) :
    (statusByte s).toNat = 4 * s.err.toNat + 2 * s.done.toNat := by
  have herr := Bool.toNat_le s.err
  have hdone := Bool.toNat_le s.done
  have hidle : s.isBusy.toNat = 0 := by simp [State.isBusy, hbusy]
  rw [statusByte_eq, hidle, Nat.add_zero, BitVec.toNat_ofNat, Nat.mod_eq_of_lt (by omega)]

/-- The CAUSE register holds the code (R35). -/
theorem causeByte_of_cause {s : State} {c : Cause} (hcause : s.cause = c) :
    causeByte s = BitVec.ofNat 8 c.code.toNat := by
  apply BitVec.eq_of_toNat_eq
  have hcode := c.code.isLt
  rw [causeByte_toNat, hcause, BitVec.toNat_ofNat, Nat.mod_eq_of_lt (by omega)]

/-- A LEN byte as a number (R37). -/
theorem lenByte_toNat (s : State) (j : Fin 8) :
    (lenByte s j).toNat = s.len.toNat / 2 ^ (56 - 8 * j.val) % 256 := by
  rw [lenByte, BitVec.extractLsb'_toNat, Nat.shiftRight_eq_div_pow]

/-! In each lemma below the address's range settles every test of `rdIdle`; `omega` refutes those of the ranges before
it and proves its own. -/

theorem rdIdle_len (s : State) {j : Nat} (hj : j < 8) : rdIdle (0x08 + j) s = lenByte s ⟨j, hj⟩ := by
  simp (disch := omega) only [rdIdle, if_neg, dif_pos, Nat.add_sub_cancel_left]

theorem rdIdle_digest (s : State) {i : Nat} (hi : i < 32) : rdIdle (0x20 + i) s = s.digest[i] := by
  simp (disch := omega) only [rdIdle, if_neg, dif_neg, dif_pos, Nat.add_sub_cancel_left]

theorem rdIdle_hex (s : State) {j : Nat} (hj : j < 64) : rdIdle (0x40 + j) s = (hexView s.digest)[j] := by
  simp (disch := omega) only [rdIdle, if_neg, dif_neg, dif_pos, Nat.add_sub_cancel_left]

/-- The addresses the map does not name (R57). -/
theorem rdIdle_reserved (s : State) {a : Nat} (ha : (0x03 ≤ a ∧ a ≤ 0x07) ∨ (0x10 ≤ a ∧ a ≤ 0x1F) ∨ 0x80 ≤ a) :
    rdIdle a s = 0x00 := by
  simp (disch := omega) only [rdIdle, if_neg, dif_neg]

/-- With BUSY = 0 an address written as a number below 256 reads the map at that number. -/
theorem rdRead_ofNat_of_idle {s : State} (hbusy : s.busy = none) {a : Nat} (ha : a < 256) :
    rdRead (BitVec.ofNat 8 a) s = rdIdle a s := by
  rw [rdRead_of_idle hbusy, BitVec.toNat_ofNat, Nat.mod_eq_of_lt ha]

/-- Settles O33: with BUSY = 0 each range of the map reads its register. -/
theorem readPortMap : Obligations.ReadPortMap := by
  intro s hbusy
  have hstatus : rdRead 0x00 s = statusByte s := rdRead_status s
  have hcause : rdRead 0x01 s = causeByte s := rdRead_of_idle hbusy 0x01
  have hfill : rdRead 0x02 s = fillByte s := rdRead_of_idle hbusy 0x02
  rw [hstatus, hcause, hfill]
  refine ⟨statusByte_toNat_of_idle hbusy, causeByte_of_cause, causeByte_of_cause, causeByte_of_cause,
    causeByte_of_cause, fillByte_toNat s, fun j hj => ?len, fun i hi => ?digest, fun j hj => ?hex,
    fun a ha => ?reserved⟩
  case len => rw [rdRead_ofNat_of_idle hbusy (by omega), rdIdle_len s hj, lenByte_toNat]
  case digest => rw [rdRead_ofNat_of_idle hbusy (by omega), rdIdle_digest s hi]
  case hex => rw [rdRead_ofNat_of_idle hbusy (by omega), rdIdle_hex s hj]
  case reserved => rw [rdRead_of_idle hbusy, rdIdle_reserved s ha]

end Sys2Proof.Machine

namespace Sys2Proof.Machine

/-! ### The fields of a command word as numbers (30_encoding.md R70) -/

@[simp] theorem opField_toNat (c : CmdWord) : (opField c).toNat = c.toNat / 4096 := by
  have hc := c.isLt
  rw [opField, BitVec.extractLsb'_toNat, Nat.shiftRight_eq_div_pow]
  omega

@[simp] theorem rsvField_toNat (c : CmdWord) : (rsvField c).toNat = c.toNat / 256 % 16 := by
  rw [rsvField, BitVec.extractLsb'_toNat, Nat.shiftRight_eq_div_pow]

@[simp] theorem dataField_toNat (c : CmdWord) : (dataField c).toNat = c.toNat % 256 := by
  rw [dataField, BitVec.extractLsb'_toNat, Nat.shiftRight_zero]

/-- A command word is its three fields (R70). -/
theorem eq_of_fields_eq {c c' : CmdWord} (hop : opField c = opField c') (hrsv : rsvField c = rsvField c')
    (hdata : dataField c = dataField c') : c = c' := by
  have hop' := congrArg BitVec.toNat hop
  have hrsv' := congrArg BitVec.toNat hrsv
  have hdata' := congrArg BitVec.toNat hdata
  simp only [opField_toNat, rsvField_toNat, dataField_toNat] at hop' hrsv' hdata'
  exact BitVec.eq_of_toNat_eq (by omega)

/-! ### The word of each instruction as a number (R71, R75) -/

@[simp] theorem encode_nop_toNat : (encode .nop).toNat = 0x0000 := rfl

@[simp] theorem encode_init_toNat : (encode .init).toNat = 0x1000 := rfl

@[simp] theorem encode_final_toNat : (encode .final).toNat = 0x3000 := rfl

@[simp] theorem encode_absorb_toNat (d : Byte) : (encode (.absorb d)).toNat = 0x2000 + d.toNat := by
  have hd := d.isLt
  simp only [encode, BitVec.ofNat_eq_ofNat, BitVec.toNat_add, BitVec.toNat_setWidth, BitVec.toNat_ofNat]
  omega

theorem opField_encode_absorb (d : Byte) : opField (encode (.absorb d)) = 0x2#4 := by
  have hd := d.isLt
  apply BitVec.eq_of_toNat_eq
  rw [opField_toNat, encode_absorb_toNat, BitVec.toNat_ofNat]
  omega

theorem dataField_encode_absorb (d : Byte) : dataField (encode (.absorb d)) = d := by
  have hd := d.isLt
  apply BitVec.eq_of_toNat_eq
  rw [dataField_toNat, encode_absorb_toNat]
  omega

/-! ### Decoding and encoding are inverse (R71 to R74) -/

/-- A word that decodes to an instruction is that instruction's word. Each test of R74 fixes the three fields. -/
theorem encode_of_decode {c : CmdWord} {i : Instr} (h : decode c = .ok i) : encode i = c := by
  unfold decode at h
  split_ifs at h with hrsv hnop hinit habsorb hfinal
  all_goals
    obtain rfl := Except.ok.inj h
    rw [not_not] at hrsv
  · exact eq_of_fields_eq hnop.1.symm hrsv.symm hnop.2.symm
  · exact eq_of_fields_eq hinit.1.symm hrsv.symm hinit.2.symm
  · exact eq_of_fields_eq ((opField_encode_absorb _).trans habsorb.symm)
      ((Laws.ReservedFields.absorb _).1.trans hrsv.symm) (dataField_encode_absorb _)
  · exact eq_of_fields_eq hfinal.1.symm hrsv.symm hfinal.2.symm

/-- The decoder, as the words it accepts: a word decodes to an instruction exactly when it is that instruction's. -/
theorem decode_eq_ok_iff {c : CmdWord} {i : Instr} : decode c = .ok i ↔ encode i = c :=
  ⟨encode_of_decode, fun h => h ▸ decode_encode i⟩

theorem encode_injective : Function.Injective encode := fun i j h => by
  have hdecode : decode (encode i) = .ok j := decode_eq_ok_iff.mpr h.symm
  exact Except.ok.inj ((decode_encode i).symm.trans hdecode)

/-- Settles O5: the tests of R74 lead the word of each instruction to that instruction's arm. -/
theorem decodeOfEncodeIsTheInstruction : Obligations.DecodeOfEncodeIsTheInstruction :=
  fun i _ => decode_encode i

/-- Settles O6: an arm of the decoder fixes every field of the word. -/
theorem encodeOfDecodeIsTheWord : Obligations.EncodeOfDecodeIsTheWord :=
  fun _ _ => encode_of_decode

/-! ### The decoder over the word as a number (R73, R74) -/

theorem decode_eq_ok_iff_toNat {c : CmdWord} {i : Instr} : decode c = .ok i ↔ c.toNat = (encode i).toNat :=
  decode_eq_ok_iff.trans (eq_comm.trans BitVec.toNat_inj.symm)

theorem decode_eq_nop_iff {c : CmdWord} : decode c = .ok .nop ↔ c.toNat = 0x0000 := decode_eq_ok_iff_toNat

theorem decode_eq_init_iff {c : CmdWord} : decode c = .ok .init ↔ c.toNat = 0x1000 := decode_eq_ok_iff_toNat

theorem decode_eq_final_iff {c : CmdWord} : decode c = .ok .final ↔ c.toNat = 0x3000 := decode_eq_ok_iff_toNat

theorem decode_eq_absorb_iff {c : CmdWord} {d : Byte} : decode c = .ok (.absorb d) ↔ c.toNat = 0x2000 + d.toNat := by
  rw [decode_eq_ok_iff_toNat, encode_absorb_toNat]

/-- A word is an ABSORB, of its own DATA, exactly when its upper byte is 0x20. -/
theorem decode_eq_absorb_dataField_iff {c : CmdWord} :
    decode c = .ok (.absorb (dataField c)) ↔ c.toNat / 256 = 0x20 := by
  rw [decode_eq_absorb_iff, dataField_toNat]
  omega

/-- The legal words, one arm of the decoder each. -/
theorem decode_ok_iff {c : CmdWord} :
    (∃ i, decode c = .ok i) ↔ c.toNat = 0x0000 ∨ c.toNat = 0x1000 ∨ c.toNat / 256 = 0x20 ∨ c.toNat = 0x3000 := by
  constructor
  · rintro ⟨i, h⟩
    have hword := decode_eq_ok_iff_toNat.mp h
    cases i with
    | nop => exact .inl hword
    | init => exact .inr (.inl hword)
    | absorb d =>
      have hd := d.isLt
      rw [encode_absorb_toNat] at hword
      omega
    | final => exact .inr (.inr (.inr hword))
  · rintro (h | h | h | h)
    · exact ⟨.nop, decode_eq_nop_iff.mpr h⟩
    · exact ⟨.init, decode_eq_init_iff.mpr h⟩
    · exact ⟨.absorb _, decode_eq_absorb_dataField_iff.mpr h⟩
    · exact ⟨.final, decode_eq_final_iff.mpr h⟩

theorem decode_error_iff_not_ok {c : CmdWord} : (∃ e, decode c = .error e) ↔ ¬ ∃ i, decode c = .ok i := by
  cases h : decode c <;> simp

/-- The illegal words are the others (R73). -/
theorem decode_error_iff {c : CmdWord} :
    (∃ e, decode c = .error e) ↔
      c.toNat ≠ 0x0000 ∧ c.toNat ≠ 0x1000 ∧ c.toNat / 256 ≠ 0x20 ∧ c.toNat ≠ 0x3000 := by
  rw [decode_error_iff_not_ok, decode_ok_iff]
  tauto

/-- Settles O1: a legal word is the number of its row of the opcode map, an illegal one the number of no row. -/
theorem decodeReadsTheWrittenOutWords : Obligations.DecodeReadsTheWrittenOutWords := by
  refine ⟨decode_nop_word, decode_init_word, ?absorb00, ?absorb80, ?absorbFF, decode_final_word,
    ?illegal⟩
  case absorb00 => exact decode_eq_absorb_iff.mpr rfl
  case absorb80 => exact decode_eq_absorb_iff.mpr rfl
  case absorbFF => exact decode_eq_absorb_iff.mpr rfl
  case illegal => simp [decode_error_iff]

/-- Settles O2: the fields of R70 as numbers fix the word, and with it the arm of the decoder. -/
theorem decodeFollowsTheFieldTests : Obligations.DecodeFollowsTheFieldTests := by
  intro c
  have hc := c.isLt
  refine ⟨fun hrsv => decode_error_iff.mpr ?rsv, fun hrsv hop hdata => decode_eq_nop_iff.mpr ?nop,
    fun hrsv hop hdata => decode_eq_init_iff.mpr ?init, fun hrsv hop => decode_eq_absorb_iff.mpr ?absorb,
    fun hrsv hop hdata => decode_eq_final_iff.mpr ?final, fun hrsv hop hrest => decode_error_iff.mpr ?other⟩
  case absorb => rw [BitVec.toNat_ofNat]; omega
  all_goals omega

/-! ### The opcode map and its masks (R71) -/

/-- The mask of NOP, INIT and FINAL keeps the whole word. -/
theorem and_fullMask (c : CmdWord) : c &&& 0xFFFF#16 = c := BitVec.and_allOnes

/-- The mask of ABSORB keeps OP and RSV. -/
theorem and_absorbMask (c : CmdWord) : c &&& 0xFF00#16 = c >>> 8 <<< 8 := by
  ext i hi
  interval_cases i <;> simp

theorem and_absorbMask_eq_iff {c : CmdWord} : c &&& 0xFF00#16 = 0x2000#16 ↔ c.toNat / 256 = 0x20 := by
  have hc := c.isLt
  rw [and_absorbMask, ← BitVec.toNat_inj, BitVec.toNat_shiftLeft, BitVec.toNat_ushiftRight,
    Nat.shiftLeft_eq, Nat.shiftRight_eq_div_pow, BitVec.toNat_ofNat]
  omega

/-- Settles O3: each row's match is an equation of the word as a number, and so is each arm of the decoder. -/
theorem decodeMatchesTheOpcodeMap : Obligations.DecodeMatchesTheOpcodeMap := by
  intro c
  simp only [and_fullMask, ne_eq, and_absorbMask_eq_iff]
  simp only [← BitVec.toNat_inj]
  refine ⟨decode_eq_nop_iff.symm, decode_eq_init_iff.symm, decode_eq_absorb_dataField_iff.symm,
    decode_eq_final_iff.symm, fun hnop hinit habsorb hfinal => decode_error_iff.mpr ⟨hnop, hinit, habsorb, hfinal⟩,
    fun hop => decode_error_iff.mpr ?_⟩
  have hop' : 0x4000 ≤ c.toNat := BitVec.le_def.mp hop
  omega

/-! ### The 259 legal words (R73) -/

/-- Every instruction, one word each. -/
def allInstrs : List Instr :=
  .nop :: .init :: .final :: (List.finRange 256).map fun d => .absorb (BitVec.ofFin d)

theorem mem_allInstrs (i : Instr) : i ∈ allInstrs := by
  cases i with
  | absorb d =>
    have hd : Instr.absorb d = .absorb (BitVec.ofFin d.toFin) := rfl
    rw [hd]
    simp [allInstrs]
  | _ => simp [allInstrs]

theorem allInstrs_length : allInstrs.length = 259 := by simp [allInstrs]

theorem allInstrs_nodup : allInstrs.Nodup := by
  have habsorb : Function.Injective fun d : Fin 256 => Instr.absorb (BitVec.ofFin d) :=
    fun d d' h => BitVec.ofFin.inj (Instr.absorb.inj h)
  simp [allInstrs, (List.nodup_finRange 256).map habsorb]

/-- Settles O4: the legal words are the encodings of the 259 instructions, all different. -/
theorem illegalWordsAreTheReservedOnes : Obligations.IllegalWordsAreTheReservedOnes := by
  refine ⟨fun c => ?illegal, allInstrs.map encode, allInstrs_nodup.map encode_injective, ?length, fun c => ?mem⟩
  case illegal =>
    have hc := c.isLt
    rw [decode_error_iff]
    omega
  case length => rw [List.length_map, allInstrs_length]
  case mem => simp [mem_allInstrs, decode_eq_ok_iff]

/-! ### The assembler (R75) and the presented word (R70, R235) -/

theorem assemble_of_wf {a : AsmCommand} (h : a.wf = true) : assemble a = some (encode (asmInstr a)) := if_pos h

theorem assemble_of_not_wf {a : AsmCommand} (h : a.wf = false) : assemble a = none := by
  simp [assemble, h]

/-- The word of ABSORB of a byte written as a number. -/
theorem encode_absorb_ofNat {n : Nat} (hn : n ≤ 255) :
    encode (.absorb (BitVec.ofNat 8 n)) = BitVec.ofNat 16 (0x2000 + n) := by
  apply BitVec.eq_of_toNat_eq
  rw [encode_absorb_toNat, BitVec.toNat_ofNat, BitVec.toNat_ofNat]
  omega

/-- Settles O7: a command with an operand that is a byte assembles to its instruction's word. -/
theorem assembleGivesTheWords : Obligations.AssembleGivesTheWords := by
  refine ⟨assemble_of_wf rfl, assemble_of_wf rfl, assemble_of_wf rfl, fun n hn => ?number, fun n hn => ?tooLarge,
    fun c hc => ?char⟩
  case number =>
    have hwf : (AsmCommand.absorb (.number n)).wf = true := decide_eq_true hn
    exact (assemble_of_wf hwf).trans (congrArg some (encode_absorb_ofNat hn))
  case tooLarge => exact assemble_of_not_wf (decide_eq_false (by omega))
  case char =>
    have hwf : (AsmCommand.absorb (.char c)).wf = true := decide_eq_true hc
    exact (assemble_of_wf hwf).trans (congrArg some (encode_absorb_ofNat (by omega)))

theorem decodeTableWord_of_decode_ok {nbits w : Nat} {i : Instr} (hw : w < 2 ^ nbits)
    (hdecode : decode (BitVec.ofNat 16 w) = .ok i) : decodeTableWord nbits w = some i := by
  simp only [decodeTableWord, Nat.mod_eq_of_lt hw, hdecode]

/-- Settles O9: the word stands first among the moves of an idle state, so the next step accepts it. -/
theorem presentedWordRunsNext : Obligations.PresentedWordRunsNext := by
  intro s w i hw hdecode
  have hmoves : (s.withFetchWord 16 w).moves = .command (BitVec.ofNat 16 w) :: s.moves := by
    rw [State.withFetchWord, Nat.mod_eq_of_lt hw]
  exact ⟨decodeTableWord_of_decode_ok hw hdecode, stepRunsTheDecodedCommand _ _ _ i rfl hmoves hdecode⟩

end Sys2Proof.Machine

namespace Sys2Proof.Machine

/-! ### The 64-byte blocks of a byte sequence, and BLOCK_STEP* as a fold over them (R103, R194) -/

theorem nthBlock_succ (bytes : List Byte) (j : Nat) : nthBlock bytes (j + 1) = nthBlock (bytes.drop 64) j := by
  rw [nthBlock, nthBlock, List.drop_drop, Nat.mul_succ, Nat.add_comm]

theorem nthBlock_append_left {full : List Byte} (rest : List Byte) {j : Nat} (h : 64 * (j + 1) ≤ full.length) :
    nthBlock (full ++ rest) j = nthBlock full j := by
  rw [nthBlock, nthBlock, List.drop_append_of_le_length (by omega),
    List.take_append_of_le_length (by rw [List.length_drop]; omega)]

theorem nthBlock_append_right {n : Nat} {full : List Byte} (hfull : full.length = 64 * n) (rest : List Byte) (j : Nat) :
    nthBlock (full ++ rest) (n + j) = nthBlock rest j := by
  rw [nthBlock, nthBlock, Nat.mul_add, ← hfull, List.drop_length_add_append]

/-- A sequence of 64 bytes is one block. -/
theorem nthBlock_zero {bytes : List Byte} (h : bytes.length = 64) : nthBlock bytes 0 = blockOf bytes := by
  rw [nthBlock, Nat.mul_zero, List.drop_zero, List.take_of_length_le h.le]

/-- Behind `n` full blocks the blocks are those of the rest. -/
theorem map_nthBlock_append {n : Nat} {full : List Byte} (hfull : full.length = 64 * n) (rest : List Byte) (k : Nat) :
    (List.range (n + k)).map (nthBlock (full ++ rest)) =
      (List.range n).map (nthBlock full) ++ (List.range k).map (nthBlock rest) := by
  have hleft : (List.range n).map (nthBlock (full ++ rest)) = (List.range n).map (nthBlock full) := by
    apply List.map_congr_left
    intro j hj
    have hj' := List.mem_range.mp hj
    exact nthBlock_append_left rest (by omega)
  have hright : nthBlock (full ++ rest) ∘ (n + ·) = nthBlock rest := funext (nthBlock_append_right hfull rest)
  rw [List.range_add, List.map_append, List.map_map, hleft, hright]

theorem blockSteps_eq_foldl (n : Nat) (h : HashState) (bytes : List Byte) :
    blockSteps n h bytes = ((List.range n).map (nthBlock bytes)).foldl blockStep h := by
  induction n generalizing h bytes with
  | zero => rfl
  | succ n ih =>
    have hfirst : nthBlock bytes 0 = blockOf (bytes.take 64) := rfl
    have hrest : nthBlock bytes ∘ Nat.succ = nthBlock (bytes.drop 64) := funext (nthBlock_succ bytes)
    rw [blockSteps, ih, List.range_succ_eq_map, List.map_cons, List.map_map, List.foldl_cons, hfirst, hrest]

theorem compressTail_eq_foldl (h : HashState) (t : TailBlocks) : compressTail h t = t.toList.foldl blockStep h := by
  obtain ⟨first, second⟩ := t
  cases second <;> rfl

/-- R194's loop is `BLOCK_STEP*` over the padded message. -/
theorem sha256_eq_serialize (m : List Byte) : sha256 m = serialize (blockStepStar IV (pad m)) := by
  rw [blockStepStar, blockSteps_eq_foldl, List.foldl_map]
  rfl

/-! ### The bytes PAD adds to a message (R100, R101) -/

/-- What PAD puts behind a message of `len` bytes: the marker, the zero bytes, the bit length. -/
def padding (len : Nat) : List Byte :=
  0x80 :: (List.replicate (zeroFill len) 0x00 ++ be64Bytes (BitVec.ofNat 64 (8 * len)))

theorem pad_eq_append_padding (m : List Byte) : pad m = m ++ padding m.length := by
  simp [pad, padding]

theorem zeroFill_eq_emod (len : Nat) : (zeroFill len : Int) = (55 - (len : Int)) % 64 :=
  Int.toNat_of_nonneg (Int.emod_nonneg _ (by decide))

theorem zeroFill_of_le {len : Nat} (h : len % 64 ≤ 55) : zeroFill len = 55 - len % 64 := by
  have hk := zeroFill_eq_emod len
  omega

theorem zeroFill_of_lt {len : Nat} (h : 55 < len % 64) : zeroFill len = (63 - len % 64) + 56 := by
  have hk := zeroFill_eq_emod len
  omega

@[simp] theorem pad_length (m : List Byte) : (pad m).length = m.length + 9 + zeroFill m.length := by
  simp [pad]
  omega

theorem pad_length_eq_blockCount (m : List Byte) : (pad m).length = 64 * blockCount m.length := by
  have hk := zeroFill_eq_emod m.length
  rw [pad_length, blockCount]
  omega

/-- `be64_bytes` as a number (R11): the first byte is the most significant. -/
theorem be64Bytes_foldl (v : BitVec 64) : (be64Bytes v).foldl (fun acc b => acc * 256 + b.toNat) 0 = v.toNat := by
  have hv := v.isLt
  simp only [be64Bytes, List.foldl_cons, List.foldl_nil, BitVec.extractLsb'_toNat, Nat.shiftRight_eq_div_pow]
  omega

theorem pad_getElem?_marker (m : List Byte) : (pad m)[m.length]? = some 0x80 := by
  simp [pad_eq_append_padding, padding]

theorem pad_getElem?_zero {m : List Byte} {p : Nat} (hafter : m.length < p) (hbefore : p < (pad m).length - 8) :
    (pad m)[p]? = some 0x00 := by
  rw [pad_length] at hbefore
  obtain ⟨i, rfl⟩ := Nat.exists_eq_add_of_lt hafter
  have hi : i < zeroFill m.length := by omega
  rw [pad_eq_append_padding, List.getElem?_append_right (by omega), Nat.add_assoc, Nat.add_sub_cancel_left, padding,
    List.getElem?_cons_succ, List.getElem?_append_left (by simpa using hi), List.getElem?_replicate_of_lt hi]

theorem pad_drop_length (m : List Byte) :
    (pad m).drop ((pad m).length - 8) = be64Bytes (BitVec.ofNat 64 (8 * m.length)) := by
  rw [pad]
  exact List.drop_left' (by simp; omega)

/-- Settles O44: each clause by where PAD puts its bytes; the length is 64 times the least sufficient count. -/
theorem padMeetsTheContract : Obligations.PadMeetsTheContract := by
  intro m hlen
  have hcount := pad_length_eq_blockCount m
  have hk := zeroFill_eq_emod m.length
  refine ⟨⟨padding m.length, (pad_eq_append_padding m).symm⟩, pad_getElem?_marker m, fun p => pad_getElem?_zero,
    pad_drop_length m, ?number, ⟨_, hcount⟩, ?positive, ?least, ?small, hk, ?residue⟩
  case number =>
    rw [pad_drop_length, be64Bytes_foldl, BitVec.toNat_ofNat]
    omega
  case positive => rw [pad_length]; omega
  case least =>
    rintro n ⟨blocks, rfl⟩ hn
    rw [hcount, blockCount]
    omega
  case small => omega
  case residue => omega

/-! ### PAD_TAIL (R108, R109) -/

theorem padTail_of_le {t : List Byte} (h : t.length ≤ 55) (len : BitVec 64) :
    padTail t len =
      { first := blockOf (t ++ [0x80] ++ List.replicate (55 - t.length) 0x00 ++ be64Bytes (8 * len)), second := none } :=
  if_pos h

theorem padTail_of_lt {t : List Byte} (h : 55 < t.length) (len : BitVec 64) :
    padTail t len =
      { first := blockOf (t ++ [0x80] ++ List.replicate (63 - t.length) 0x00)
        second := some (blockOf (List.replicate 56 0x00 ++ be64Bytes (8 * len))) } :=
  if_neg (Nat.not_le_of_lt h)

theorem padTail_toList_length (t : List Byte) (len : BitVec 64) :
    (padTail t len).toList.length = if t.length ≤ 55 then 1 else 2 := by
  split
  case isTrue h => rw [padTail_of_le h]; rfl
  case isFalse h => rw [padTail_of_lt (Nat.lt_of_not_le h)]; rfl

theorem padTail_second_eq_none_iff (t : List Byte) (len : BitVec 64) :
    (padTail t len).second = none ↔ t.length ≤ 55 := by
  by_cases h : t.length ≤ 55
  · simp [padTail_of_le h, h]
  · simp [padTail_of_lt (Nat.lt_of_not_le h), h]

/-- The bytes behind the full blocks of a message. -/
theorem drop_fullBlocks_length (m : List Byte) : (m.drop (64 * (m.length / 64))).length = m.length % 64 := by
  rw [List.length_drop]
  omega

theorem blockCount_eq_add_padTail (m : List Byte) (len : BitVec 64) :
    blockCount m.length = m.length / 64 + (padTail (m.drop (64 * (m.length / 64))) len).toList.length := by
  rw [padTail_toList_length, drop_fullBlocks_length, blockCount]
  split <;> omega

/-- Settles O45: the length and the counts are arithmetic of `L / 64` and `L mod 64`. -/
theorem paddedLengthAndBlockCount : Obligations.PaddedLengthAndBlockCount := by
  refine ⟨fun m => ⟨pad_length m, pad_length_eq_blockCount m, ?ceiling, ?positive, blockCount_eq_add_padTail m _, ?one⟩,
    by decide⟩
  case ceiling => rw [blockCount]; omega
  case positive => rw [blockCount]; omega
  case one => rw [padTail_second_eq_none_iff, drop_fullBlocks_length]

/-- The blocks of PAD_TAIL are those of the tail with PAD's bytes behind it: the zero counts agree (R109). -/
theorem padTail_toList_eq_map_nthBlock {t : List Byte} {len : Nat} (ht : t.length = len % 64) :
    (padTail t (BitVec.ofNat 64 len)).toList =
      (List.range (padTail t (BitVec.ofNat 64 len)).toList.length).map (nthBlock (t ++ padding len)) := by
  have hbits : 8 * BitVec.ofNat 64 len = BitVec.ofNat 64 (8 * len) := (BitVec.ofNat_mul 8 len).symm
  by_cases hr : t.length ≤ 55
  · have hsplit : t ++ padding len = t ++ [0x80] ++ List.replicate (55 - t.length) 0x00 ++
        be64Bytes (BitVec.ofNat 64 (8 * len)) := by
      simp [padding, zeroFill_of_le (ht ▸ hr), ht]
    rw [padTail_of_le hr, hbits, hsplit]
    exact congrArg (· :: []) (nthBlock_zero (by simp; omega)).symm
  · have hr' : 55 < t.length := Nat.lt_of_not_le hr
    have hsplit : t ++ padding len = (t ++ [0x80] ++ List.replicate (63 - t.length) 0x00) ++
        (List.replicate 56 0x00 ++ be64Bytes (BitVec.ofNat 64 (8 * len))) := by
      simp only [padding, zeroFill_of_lt (ht ▸ hr'), ht, List.replicate_add]
      simp
    have hfirst : (t ++ [0x80] ++ List.replicate (63 - t.length) 0x00).length = 64 * 1 := by simp; omega
    rw [padTail_of_lt hr', hbits, hsplit]
    refine Eq.trans ?_ (map_nthBlock_append hfirst _ 1).symm
    exact congrArg₂ (· :: · :: []) (nthBlock_zero hfirst).symm (nthBlock_zero (by simp)).symm

/-- R109: the blocks of PAD are the full blocks of the message and then the blocks of PAD_TAIL. -/
theorem map_nthBlock_pad (m : List Byte) :
    (List.range (blockCount m.length)).map (nthBlock (pad m)) =
      (List.range (m.length / 64)).map (nthBlock (m.take (64 * (m.length / 64)))) ++
        (padTail (m.drop (64 * (m.length / 64))) (BitVec.ofNat 64 m.length)).toList := by
  have hfull : (m.take (64 * (m.length / 64))).length = 64 * (m.length / 64) := by
    rw [List.length_take]
    omega
  have hsplit : pad m = m.take (64 * (m.length / 64)) ++ (m.drop (64 * (m.length / 64)) ++ padding m.length) := by
    rw [← List.append_assoc, List.take_append_drop, pad_eq_append_padding]
  rw [blockCount_eq_add_padTail m (BitVec.ofNat 64 m.length), hsplit, map_nthBlock_append hfull,
    ← padTail_toList_eq_map_nthBlock (drop_fullBlocks_length m)]

/-- Settles O46: the full blocks lie within the message, whatever its last bytes are. -/
theorem emittedBlocksAreThePaddedMessage : Obligations.EmittedBlocksAreThePaddedMessage := by
  intro m _
  have hfull : (List.range (m.length / 64)).map (nthBlock (m.take (64 * (m.length / 64)))) =
      (List.range (m.length / 64)).map (nthBlock m) := by
    apply List.map_congr_left
    intro j hj
    have hj' := List.mem_range.mp hj
    rw [← nthBlock_append_left (m.drop (64 * (m.length / 64))) (by rw [List.length_take]; omega), List.take_append_drop]
  rw [map_nthBlock_pad, hfull]

/-! ### FINAL finishes the message the state holds (R103, R194) -/

/-- The block steps over the full blocks and then those over the tail blocks are the block steps over PAD (R109). -/
theorem compressTail_eq_blockStepStar_pad (m : List Byte) :
    compressTail (blockStepStar IV (m.take (64 * (m.length / 64))))
      (padTail (m.drop (64 * (m.length / 64))) (BitVec.ofNat 64 m.length)) = blockStepStar IV (pad m) := by
  have hfull : (m.take (64 * (m.length / 64))).length / 64 = m.length / 64 := by
    rw [List.length_take]
    omega
  have hpad : (pad m).length / 64 = blockCount m.length := by
    rw [pad_length_eq_blockCount, Nat.mul_div_cancel_left _ (by decide)]
  rw [compressTail_eq_foldl, blockStepStar, blockStepStar, hfull, hpad, blockSteps_eq_foldl, blockSteps_eq_foldl,
    ← List.foldl_append, map_nthBlock_pad]

/-- The hash state FINAL leaves is that of the whole padded message (R103, R107). -/
theorem finishMessage_h_eq {s : State} {m : List Byte} (hrep : Represents s m) (hdone : s.done = false) :
    (finishMessage s).h = blockStepStar IV (pad m) := by
  have hstart : m.length - m.length % 64 = 64 * (m.length / 64) := by omega
  have hlen : s.len = BitVec.ofNat 64 m.length := by rw [← hrep.len_eq, BitVec.ofNat_toNat, BitVec.setWidth_eq]
  rw [finishMessage_h, hrep.tail_absorbing hdone, hrep.h_absorbing hdone, hstart, hlen,
    compressTail_eq_blockStepStar_pad]

theorem finishMessage_digest_eq_sha256 {s : State} {m : List Byte} (hrep : Represents s m) (hdone : s.done = false) :
    (finishMessage s).digest = sha256 m := by
  rw [sha256_eq_serialize, ← finishMessage_h_eq hrep hdone, finishMessage_digest, finishMessage_h]

theorem represents_finishMessage {s : State} {m : List Byte} (hrep : Represents s m) (hdone : s.done = false) :
    Represents (finishMessage s) m where
  short := hrep.short
  len_eq := hrep.len_eq
  fill_absorbing h := by simp at h
  tail_absorbing h := by simp at h
  h_absorbing h := by simp at h
  fill_done _ := rfl
  h_done _ := finishMessage_h_eq hrep hdone
  digest_done _ := ⟨rfl, finishMessage_digest_eq_sha256 hrep hdone⟩

/-! ### The message history (R103) -/

/-- What a state holds of a message, it holds in its registers. -/
theorem represents_of_registers_eq {r s : State} {m : List Byte} (heq : r.registers = s.registers)
    (h : Represents s m) : Represents r m := by
  simp only [State.registers, Registers.mk.injEq] at heq
  obtain ⟨hdone, -, -, hlen, hfill, hbuf, hh, hdigest⟩ := heq
  have htail : tailBytes r = tailBytes s := by rw [tailBytes, tailBytes, hbuf, hfill]
  obtain ⟨hshort, hlen', hpos, htail', hh', hzero, hfinal, hserial⟩ := h
  constructor
  · exact hshort
  · rwa [hlen]
  · rwa [hdone, hfill]
  · rwa [hdone, htail]
  · rwa [hdone, hh]
  · rwa [hdone, hfill]
  · rwa [hdone, hh]
  · rwa [hdone, hdigest, hh]

theorem represents_raiseFault {s : State} {m : List Byte} (h : Represents s m) (c : Cause) :
    Represents (raiseFault c s) m :=
  ⟨h.short, h.len_eq, h.fill_absorbing, h.tail_absorbing, h.h_absorbing, h.fill_done, h.h_done, h.digest_done⟩

theorem represents_resetEdge (s : State) : Represents (resetEdge s) [] :=
  represents_of_absorbing rfl (by decide) rfl rfl rfl rfl

/-- LEN is at `L_MAX` for a message of the greatest length only (R7, R26). -/
theorem length_lt_of_len_ne_lMax {s : State} {m : List Byte} (hrep : Represents s m) (hroom : s.len ≠ lMax) :
    m.length < 2 ^ 61 - 1 := by
  refine lt_of_le_of_ne hrep.short fun hmax => hroom (BitVec.eq_of_toNat_eq ?_)
  rw [hrep.len_eq, hmax]
  rfl

theorem commandFault_absorb_eq_none {s : State} (hdone : s.done = false) (hroom : s.len ≠ lMax) (d : Byte) :
    commandFault (.absorb d) s = none := by
  simp [commandFault, hdone, hroom]

/-- What each effect of a command makes of the message the state holds. -/
theorem Effect.message_history {runs : Instr → Prop} {r t : State} {m : List Byte} (heffect : Effect runs r t)
    (hrep : Represents r m) :
    Represents t m ∨ (runs .init ∧ Represents t []) ∨
    ∃ d, runs (.absorb d) ∧ r.err = false ∧ commandFault (.absorb d) r = none ∧ Represents t (m ++ [d]) := by
  cases heffect with
  | unchanged => exact .inl hrep
  | faulted => exact .inl (represents_raiseFault hrep _)
  | started hruns => exact .inr (.inl ⟨hruns, represents_startMessage r⟩)
  | @stored d hruns herr hdone hroom hfill =>
    have hlen := length_lt_of_len_ne_lMax hrep hroom
    exact .inr (.inr ⟨d, hruns, herr, commandFault_absorb_eq_none hdone hroom d,
      represents_storeByte hrep hdone hlen d hfill⟩)
  | @filled d hruns herr hdone hroom hfill =>
    have hlen := length_lt_of_len_ne_lMax hrep hroom
    exact .inr (.inr ⟨d, hruns, herr, commandFault_absorb_eq_none hdone hroom d,
      represents_storeLastByte hrep hdone hlen d hfill⟩)
  | finished _ _ hdone => exact .inl (represents_finishMessage hrep hdone)

/-- Settles O51: a reset empties the message, and every other step has one of the effects of a command. -/
theorem stepKeepsTheMessageHistory : Obligations.StepKeepsTheMessageHistory := by
  intro s t m hrep hstep
  obtain ⟨hreset, r, rfl⟩ | ⟨r, hr, heffect⟩ := step_effect hstep
  · exact .inr (.inl ⟨.inr hreset, represents_resetEdge r⟩)
  · obtain hsame | ⟨hruns, hempty⟩ | ⟨d, hruns, herr, hfault, hmore⟩ :=
      heffect.message_history (represents_of_registers_eq hr hrep)
    · exact .inl hsame
    · exact .inr (.inl ⟨.inl hruns, hempty⟩)
    · exact .inr (.inr ⟨d, hruns, (congrArg Registers.err hr).symm.trans herr,
        (commandFault_of_registers_eq hr _).symm.trans hfault, hmore⟩)

/-- Settles O52: ABSORB stores its byte, in a block it fills or not, and FINAL finishes the message. -/
theorem commandsBuildAndFinishTheMessage : Obligations.CommandsBuildAndFinishTheMessage := by
  intro s m hrep herr hdone
  refine ⟨fun d hlen => ?absorb, finishMessage s, exec_final_of_absorbing herr hdone, herr, rfl,
    represents_finishMessage hrep hdone, finishMessage_digest_eq_sha256 hrep hdone⟩
  rw [exec_absorb_of_absorbing herr hdone (len_ne_lMax hrep hlen) d]
  split
  case isTrue hfill => exact ⟨_, rfl, herr, hdone, represents_storeLastByte hrep hdone hlen d hfill⟩
  case isFalse hfill => exact ⟨_, rfl, herr, hdone, represents_storeByte hrep hdone hlen d hfill⟩

/-! ### The faults of ABSORB and FINAL (R106, R107, R212) -/

theorem exec_absorb_of_done {s : State} (herr : s.err = false) (hdone : s.done = true) (d : Byte) :
    exec (.absorb d) s = .next (raiseFault .protocol s) := by
  simp [exec, execAbsorb, unlessErr, herr, hdone]

theorem exec_absorb_of_full {s : State} (herr : s.err = false) (hdone : s.done = false) (hfull : s.len = lMax)
    (d : Byte) : exec (.absorb d) s = .next (raiseFault .lenOverflow s) := by
  simp [exec, execAbsorb, unlessErr, herr, hdone, hfull]

theorem exec_final_of_done {s : State} (herr : s.err = false) (hdone : s.done = true) :
    exec .final s = .next (raiseFault .protocol s) := by
  simp [exec, execFinal, unlessErr, herr, hdone]

/-- `L_MAX` as a number (R7). -/
theorem eq_lMax_iff {len : BitVec 64} : len = lMax ↔ len.toNat = 2 ^ 61 - 1 := BitVec.toNat_inj.symm

/-! ### The registers after a block step -/

theorem bufWithByte_of_fill_eq {s : State} (hfill : s.fill = 63) (d : Byte) : bufWithByte s d = s.buf.set 63 d := by
  simp [bufWithByte, hfill]

theorem storeLastByte_registers {s : State} (hfill : s.fill = 63) (d : Byte) :
    (storeLastByte d s).registers = { s.registers with
      buf := s.buf.set 63 d, len := s.len + 1, fill := 0, h := blockStep s.h (s.buf.set 63 d) } := by
  rw [← bufWithByte_of_fill_eq hfill d]
  rfl

theorem finishMessage_registers {s : State} {t : TailBlocks} (htail : padTail (tailBytes s) s.len = t) :
    (finishMessage s).registers = { s.registers with
      done := true, fill := 0, buf := t.last, h := compressTail s.h t, digest := serialize (compressTail s.h t) } := by
  rw [← htail]
  rfl

/-! ### The four commands (40_padder.md, section 3) -/

/-- Settles O11: with ERR = 1 or 0, NOP's meaning answers its own state. -/
theorem nopChangesNothing : Obligations.NopChangesNothing := by
  refine ⟨decode_nop_word, fun s => ?same, fun c hop hdata => decode_error_iff.mpr ?illegal⟩
  case same =>
    obtain ⟨t, hexec⟩ := exec_total .nop s
    rw [hexec, execNop_cases hexec]
  case illegal => omega

/-- Settles O12: INIT is `startMessage` with ERR = 0, which is idempotent and leaves the reset state as it is. -/
theorem initStartsAMessage : Obligations.InitStartsAMessage := by
  refine ⟨decode_init_word, fun s herr => exec_init_of_noErr herr, fun s t hexec => ?twice, exec_init_of_noErr rfl,
    fun c hop hrest => decode_error_iff.mpr ?illegal⟩
  case twice =>
    obtain ⟨-, rfl⟩ | ⟨herr, rfl⟩ := execInit_cases hexec
    · exact hexec
    · exact exec_init_of_noErr (s := startMessage s) herr
  case illegal => omega

/-- Settles O13: the two faults by their guards, and the two legal effects by whether the byte fills the block. -/
theorem absorbAppendsAByte : Obligations.AbsorbAppendsAByte := by
  intro d
  refine ⟨decode_encode (.absorb d), fun s herr hdone => exec_absorb_of_done herr hdone d,
    fun s herr hdone hlen => exec_absorb_of_full herr hdone (eq_lMax_iff.mpr hlen) d,
    fun s herr hdone hlen hfill => ?stored, fun s herr hdone hlen hfill => ⟨storeLastByte d s, ?filled,
      storeLastByte_registers hfill d, rfl, rfl⟩⟩
  all_goals
    have hroom : s.len ≠ lMax := eq_lMax_iff.not.mpr hlen
    rw [exec_absorb_of_absorbing herr hdone hroom d]
  case stored =>
    rw [if_neg hfill]
    rfl
  case filled => rw [if_pos hfill]

/-- Settles O14: FINAL's registers are read off the blocks of PAD_TAIL, which FILL settles. -/
theorem finalFinishesTheMessage : Obligations.FinalFinishesTheMessage := by
  refine ⟨decode_final_word, fun s herr hdone => exec_final_of_done herr hdone,
    fun s herr hdone hfill => ⟨finishMessage s, exec_final_of_absorbing herr hdone, ?one, rfl, rfl⟩,
    fun s herr hdone hfill => ⟨finishMessage s, exec_final_of_absorbing herr hdone, ?two, rfl, rfl⟩⟩
  case one =>
    have htail := padTail_of_le (t := tailBytes s) (by rwa [tailBytes_length]) s.len
    rw [tailBytes_length] at htail
    exact (finishMessage_registers htail :)
  case two =>
    have htail := padTail_of_lt (t := tailBytes s) (by rwa [tailBytes_length]) s.len
    rw [tailBytes_length] at htail
    exact (finishMessage_registers htail :)

/-! ### Frames: what the commands leave unchanged -/

/-- With BUSY = 0 an address shows its own register alone (R55, R56). -/
theorem rdRead_congr {s t : State} (hs : s.busy = none) (ht : t.busy = none) {a : Byte}
    (hstatus : a = 0x00 → statusByte t = statusByte s) (hcause : a = 0x01 → t.cause = s.cause)
    (hfill : a = 0x02 → t.fill = s.fill) (hlen : 0x08 ≤ a ∧ a ≤ 0x0F → t.len = s.len)
    (hdigest : 0x20 ≤ a ∧ a ≤ 0x7F → t.digest = s.digest) : rdRead a t = rdRead a s := by
  rw [rdRead_of_idle hs, rdRead_of_idle ht, rdIdle, rdIdle]
  split_ifs with h0 h1 h2 hl hd hx
  · exact hstatus (BitVec.eq_of_toNat_eq h0)
  · rw [causeByte, causeByte, hcause (BitVec.eq_of_toNat_eq h1)]
  · rw [fillByte, fillByte, hfill (BitVec.eq_of_toNat_eq h2)]
  · rw [lenByte, lenByte, hlen hl]
  · simp only [hdigest (by bv_omega)]
  · simp only [hdigest (by bv_omega)]
  · rfl

/-- Settles O15: an ignored INIT answers its own state, and `startMessage` writes LEN, FILL, DONE and H. -/
theorem frameOfInit : Obligations.FrameOfInit := by
  intro s t hexec
  obtain ⟨-, rfl⟩ | ⟨herr, rfl⟩ := execInit_cases hexec
  · exact ⟨rfl, rfl, rfl, rfl, rfl, rfl, rfl, rfl, rfl, rfl, rfl, fun _ => rfl, fun _ _ _ _ _ => rfl⟩
  · refine ⟨rfl, rfl, rfl, rfl, rfl, rfl, rfl, rfl, rfl, rfl, rfl, fun h => ?erred, fun hbusy a h0 h2 hl => ?reads⟩
    case erred => simp [herr] at h
    case reads =>
      exact rdRead_congr (t := startMessage s) hbusy hbusy (fun h => absurd h h0) (fun _ => rfl) (fun h => absurd h h2)
        (fun h => absurd h hl) (fun _ => rfl)

/-- Above 0x02 a state that differs in neither BUSY nor DIGEST reads the same, LEN apart. -/
theorem rdRead_eq_of_not_len {s t : State} (hbusy : t.busy = s.busy) (hdigest : t.digest = s.digest)
    (hidle : s.busy = none) (a : Byte) (ha : 0x02 < a) (hl : ¬(0x08 ≤ a ∧ a ≤ 0x0F)) : rdRead a t = rdRead a s :=
  rdRead_congr hidle (hbusy.trans hidle) (fun h => by bv_omega) (fun h => by bv_omega) (fun h => by bv_omega)
    (fun h => absurd h hl) (fun _ => hdigest)

/-- Above 0x02 a state that differs in neither BUSY nor LEN reads the same, DIGEST and HEX apart. -/
theorem rdRead_eq_of_not_digest {s t : State} (hbusy : t.busy = s.busy) (hlen : t.len = s.len)
    (hidle : s.busy = none) (a : Byte) (ha : 0x02 < a) (hd : ¬(0x20 ≤ a ∧ a ≤ 0x7F)) : rdRead a t = rdRead a s :=
  rdRead_congr hidle (hbusy.trans hidle) (fun h => by bv_omega) (fun h => by bv_omega) (fun h => by bv_omega)
    (fun _ => hlen) (fun h => absurd h hd)

/-- Settles O16: an ignored or faulting ABSORB leaves all that is spoken of, a legal one writes only BUF at FILL, LEN,
FILL and, with FILL = 63, H and the hidden state. -/
theorem frameOfAbsorb : Obligations.FrameOfAbsorb := by
  intro d s t hexec
  obtain ⟨-, rfl⟩ | ⟨-, hdone, rfl⟩ | ⟨-, hdone, hlen, rfl⟩ | ⟨herr, -, -, hfill, rfl⟩ | ⟨herr, -, -, -, rfl⟩ :=
    execAbsorb_cases hexec
  · exact ⟨rfl, rfl, rfl, rfl, rfl, fun _ _ _ => rfl, fun _ => ⟨rfl, rfl, rfl, rfl, rfl⟩, fun _ => ⟨rfl, rfl⟩,
      fun _ => ⟨rfl, rfl, rfl, rfl⟩, fun _ _ _ _ => rfl⟩
  · refine ⟨rfl, rfl, rfl, rfl, rfl, fun _ _ _ => rfl, fun _ => ⟨rfl, rfl, rfl, rfl, rfl⟩, fun hfault => ?protocol,
      fun _ => ⟨rfl, rfl, rfl, rfl⟩, rdRead_eq_of_not_len rfl rfl⟩
    simp [commandFault, hdone] at hfault
  · refine ⟨rfl, rfl, rfl, rfl, rfl, fun _ _ _ => rfl, fun _ => ⟨rfl, rfl, rfl, rfl, rfl⟩, fun hfault => ?lenOverflow,
      fun _ => ⟨rfl, rfl, rfl, rfl⟩, rdRead_eq_of_not_len rfl rfl⟩
    simp [commandFault, hdone, hlen] at hfault
  · exact ⟨rfl, rfl, rfl, rfl, rfl, bufWithByte_ne s d, fun hne => absurd hfill hne, fun _ => ⟨rfl, rfl⟩,
      fun h => by simp [herr] at h, rdRead_eq_of_not_len rfl rfl⟩
  · exact ⟨rfl, rfl, rfl, rfl, rfl, bufWithByte_ne s d, fun _ => ⟨rfl, rfl, rfl, rfl, rfl⟩, fun _ => ⟨rfl, rfl⟩,
      fun h => by simp [herr] at h, rdRead_eq_of_not_len rfl rfl⟩

/-- Settles O17: an ignored or faulting FINAL leaves all that is spoken of, and `finishMessage` writes neither LEN nor
BUSY. -/
theorem frameOfFinal : Obligations.FrameOfFinal := by
  intro s t hexec
  obtain ⟨-, rfl⟩ | ⟨-, hdone, rfl⟩ | ⟨herr, -, rfl⟩ := execFinal_cases hexec
  · exact ⟨rfl, rfl, rfl, rfl, fun _ => ⟨rfl, rfl⟩, fun _ => ⟨rfl, rfl, rfl, rfl, rfl, rfl, rfl, rfl, rfl⟩,
      fun _ _ _ _ => rfl⟩
  · refine ⟨rfl, rfl, rfl, rfl, fun hfault => ?protocol, fun _ => ⟨rfl, rfl, rfl, rfl, rfl, rfl, rfl, rfl, rfl⟩,
      rdRead_eq_of_not_digest rfl rfl⟩
    simp [commandFault, hdone] at hfault
  · exact ⟨rfl, rfl, rfl, rfl, fun _ => ⟨rfl, rfl⟩, fun h => by simp [herr] at h, rdRead_eq_of_not_digest rfl rfl⟩

end Sys2Proof.Machine

namespace Sys2Proof.Machine

/-! ### The sigma functions (R142, R143, R162, R164) -/

/-- Every sigma function is the xor of two rotations of its word and a third word;
each rotation brings the bit of R10. -/
theorem rotr_xor_rotr_xor_getLsbD (x z : Word) {m n i : Nat} (hm : m < 32) (hn : n < 32) (hi : i < 32) :
    (rotr x m ^^^ rotr x n ^^^ z).getLsbD i =
      ((x.getLsbD ((i + m) % 32) ^^ x.getLsbD ((i + n) % 32)) ^^ z.getLsbD i) := by
  rw [BitVec.getLsbD_xor, BitVec.getLsbD_xor, rotr_getLsbD x hm hi, rotr_getLsbD x hn hi]

/-- Settles O39: the third word of `sigma0` and `sigma1` is a logical shift, that of `Sigma1` and `Sigma0` a
rotation. -/
theorem sigmasBitByBit : Obligations.SigmasBitByBit := by
  intro x i hi
  have hxor {m n : Nat} (z : Word) (hm : m < 32) (hn : n < 32) := rotr_xor_rotr_xor_getLsbD x z hm hn hi
  have hshift (n : Nat) : (x >>> n).getLsbD i = x.getLsbD (i + n) := by
    rw [BitVec.getLsbD_ushiftRight, Nat.add_comm]
  refine ⟨?sigma0, ?sigma1, ?bigSigma1, ?bigSigma0⟩
  case sigma0 => rw [sigma0, hxor _ (by decide) (by decide), hshift]
  case sigma1 => rw [sigma1, hxor _ (by decide) (by decide), hshift]
  case bigSigma1 => rw [bigSigma1, hxor _ (by decide) (by decide), rotr_getLsbD x (by decide) hi]
  case bigSigma0 => rw [bigSigma0, hxor _ (by decide) (by decide), rotr_getLsbD x (by decide) hi]

/-! ### The words of the schedule (R141, R144) -/

/-- Before the expansion the first sixteen words are the message words (R141). -/
theorem messageWords_getElem (blk : Block) {t : Nat} (ht : t < 16) :
    (messageWords blk)[t] = messageWord blk ⟨t, ht⟩ := by
  simp [messageWords, ht]

/-- The word that an expansion step writes (R144). -/
theorem expandWord_getElem_self (w : Vector Word 64) (n : Fin 48) :
    (expandWord w n)[n.val + 16] =
      w[n.val] + sigma0 w[n.val + 1] + w[n.val + 9] + sigma1 w[n.val + 14] :=
  Vector.getElem_set_self _

/-- An expansion step leaves every other word unchanged. -/
theorem expandWord_getElem_ne (w : Vector Word 64) (n : Fin 48) {j : Nat} (hj : j < 64) (hne : j ≠ n.val + 16) :
    (expandWord w n)[j] = w[j] :=
  Vector.getElem_set_ne (by omega) hj hne.symm

/-- A word below `n + 16` is final after `n` expansion steps: every later step writes a higher one. -/
theorem scheduleUpTo_getElem_stable (blk : Block) {n m : Nat} (hnm : n ≤ m) (hm : m ≤ 48) {j : Nat}
    (hj : j < n + 16) : (scheduleUpTo blk m hm)[j] = (scheduleUpTo blk n (hnm.trans hm))[j] := by
  induction m, hnm using Nat.le_induction with
  | base => rfl
  | succ m hnm ih =>
    rw [scheduleUpTo, expandWord_getElem_ne _ ⟨m, hm⟩ (by omega) (show j ≠ m + 16 by omega)]
    exact ih _

/-- A word of the finished schedule is the word that stands there after any `n` expansion steps that reach it. -/
theorem schedule_getElem (blk : Block) {n : Nat} (hn : n ≤ 48) {j : Nat} (hj : j < n + 16) :
    (schedule blk)[j] = (scheduleUpTo blk n hn)[j] :=
  scheduleUpTo_getElem_stable blk hn (Nat.le_refl 48) hj

/-- The first sixteen words of the finished schedule are the message words (R141). -/
theorem schedule_getElem_of_lt (blk : Block) {t : Nat} (ht : t < 16) :
    (schedule blk)[t] = messageWord blk ⟨t, ht⟩ :=
  (schedule_getElem blk (Nat.zero_le 48) (by omega)).trans (messageWords_getElem blk ht)

/-- The recurrence of R144 in the finished schedule: expansion step `n` reads words that are final already. -/
theorem schedule_getElem_add_sixteen (blk : Block) {n : Nat} (hn : n < 48) :
    (schedule blk)[n + 16] =
      (schedule blk)[n] + sigma0 (schedule blk)[n + 1] + (schedule blk)[n + 9] + sigma1 (schedule blk)[n + 14] := by
  have hfinal {j : Nat} (hj : j < n + 16) := schedule_getElem blk hn.le hj
  rw [schedule_getElem blk (n := n + 1) hn (by omega), scheduleUpTo, expandWord_getElem_self _ ⟨n, hn⟩,
    hfinal (by omega), hfinal (by omega), hfinal (by omega), hfinal (by omega)]

/-- Settles O40: no later expansion step writes a message word or a word that an earlier step wrote. -/
theorem scheduleRecurrence : Obligations.ScheduleRecurrence := by
  refine fun blk => ⟨fun t ht => ?message, fun i hi16 hi => ?expanded⟩
  case message => rw [schedule_getElem_of_lt blk ht, messageWord, be32_toNat]
  case expanded =>
    obtain ⟨n, rfl⟩ := Nat.exists_eq_add_of_le' hi16
    exact schedule_getElem_add_sixteen blk (by omega)

end Sys2Proof.Machine

/-! ## The compressor (42_compressor.md) -/

namespace Sys2Proof.Machine

/-! ### The round functions bit by bit (R163, R165) -/

/-- A bit of Ch from the bits at its position. -/
theorem ch_getLsbD (e f g : Word) {i : Nat} (hi : i < 32) :
    (ch e f g).getLsbD i = ((e.getLsbD i && f.getLsbD i) ^^ (!e.getLsbD i && g.getLsbD i)) := by
  rw [ch, BitVec.getLsbD_xor, BitVec.getLsbD_and, BitVec.getLsbD_and, BitVec.getLsbD_not, decide_eq_true hi,
    Bool.true_and]

/-- A bit of Maj from the bits at its position. -/
theorem maj_getLsbD (a b c : Word) (i : Nat) :
    (maj a b c).getLsbD i =
      (((a.getLsbD i && b.getLsbD i) ^^ (a.getLsbD i && c.getLsbD i)) ^^ (b.getLsbD i && c.getLsbD i)) := by
  simp only [maj, BitVec.getLsbD_xor, BitVec.getLsbD_and]

/-- With exclusive conditions the exclusive or of R163 is a choice. -/
theorem xor_and_not_and_eq_ite (e f g : Bool) : ((e && f) ^^ (!e && g)) = if e then f else g := by
  cases e <;> simp

/-- The exclusive or of the three pairwise conjunctions of R165 is the majority: one conjunction is true with two
ones, all three with three. -/
theorem xor_and_pairs_iff_two_le (a b c : Bool) :
    (((a && b) ^^ (a && c)) ^^ (b && c)) = true ↔ 2 ≤ a.toNat + b.toNat + c.toNat := by
  decide +revert

/-- Settles O41: each word function is its bit function at every position. -/
theorem chooseAndMajorityBitByBit : Obligations.ChooseAndMajorityBitByBit := by
  refine ⟨fun e f g i hi => ?choose, fun a b c i _ => ?majority⟩
  case choose => rw [ch_getLsbD e f g hi, xor_and_not_and_eq_ite]
  case majority => rw [maj_getLsbD, xor_and_pairs_iff_two_le]

/-! ### The sequence of working variables (R166, R167) -/

/-- The working variables after `n` rounds for every `n`: no round follows the 64th. -/
def varsAfter (hin : HashState) (w : Vector Word 64) (n : Nat) : WorkVars :=
  roundsUpTo hin w (min n 64) (Nat.min_le_right n 64)

/-- Up to the 64th round `varsAfter` is the model's own `roundsUpTo`. -/
theorem varsAfter_eq_roundsUpTo (hin : HashState) (w : Vector Word 64) {n : Nat} (hn : n ≤ 64) :
    varsAfter hin w n = roundsUpTo hin w n hn := by
  simp only [varsAfter, Nat.min_eq_left hn]

/-- Each of the 64 rounds is applied to the working variables that the round before it left (R167). -/
theorem varsAfter_succ (hin : HashState) (w : Vector Word 64) {i : Nat} (hi : i < 64) :
    varsAfter hin w (i + 1) = round ⟨i, hi⟩ (varsAfter hin w i) w := by
  rw [varsAfter_eq_roundsUpTo hin w hi, roundsUpTo, varsAfter_eq_roundsUpTo hin w hi.le]

/-- Compression adds the working variables after the 64th round to the block-entry state (R168). -/
theorem compress_eq_add_varsAfter (hin : HashState) (w : Vector Word 64) :
    compress hin w =
      #v[hin[0] + (varsAfter hin w 64).a, hin[1] + (varsAfter hin w 64).b, hin[2] + (varsAfter hin w 64).c,
        hin[3] + (varsAfter hin w 64).d, hin[4] + (varsAfter hin w 64).e, hin[5] + (varsAfter hin w 64).f,
        hin[6] + (varsAfter hin w 64).g, hin[7] + (varsAfter hin w 64).h] := by
  rw [compress, varsAfter_eq_roundsUpTo hin w (Nat.le_refl 64)]

/-- Settles O42: the sequence is that of the model's rounds, and compression adds its 64th member. -/
theorem compressRunsSixtyFourRounds : Obligations.CompressRunsSixtyFourRounds := by
  refine fun hin w => ⟨varsAfter hin w, ?start, fun i hi => ?next, ?sum⟩
  case start => rw [varsAfter_eq_roundsUpTo hin w (Nat.zero_le 64), roundsUpTo, initialVars]
  case next => exact varsAfter_succ hin w hi
  case sum => exact compress_eq_add_varsAfter hin w

end Sys2Proof.Machine

/-! ## The finalizer and whole messages (43_finalizer.md) -/

namespace Sys2Proof.Machine

/-! ### The hexadecimal view of the digest (R192, R193) -/

/-- The character of a nibble is its lowercase hexadecimal digit (R192). -/
theorem hexChar_toNat (n : BitVec 4) :
    (hexChar n).toNat = if n.toNat ≤ 9 then 0x30 + n.toNat else 0x61 + (n.toNat - 10) := by
  revert n
  decide

/-- No other character than `0` to `9` and `a` to `f` is used (R193). -/
theorem hexChar_range (n : BitVec 4) :
    (0x30 ≤ (hexChar n).toNat ∧ (hexChar n).toNat ≤ 0x39) ∨
      (0x61 ≤ (hexChar n).toNat ∧ (hexChar n).toNat ≤ 0x66) := by
  have hn := n.isLt
  rw [hexChar_toNat]
  split
  · exact .inl (by omega)
  · exact .inr (by omega)

theorem highNibble_toNat (b : Byte) : (b.extractLsb' 4 4).toNat = b.toNat / 16 := by
  have hb := b.isLt
  rw [BitVec.extractLsb'_toNat, Nat.shiftRight_eq_div_pow]
  omega

theorem lowNibble_toNat (b : Byte) : (b.extractLsb' 0 4).toNat = b.toNat % 16 := by
  rw [BitVec.extractLsb'_toNat, Nat.shiftRight_zero]

/-- The character at an even position shows the high nibble of its byte (R192). -/
theorem hexView_getElem_even (digest : Vector Byte 32) {i : Nat} (hi : i < 32) :
    (hexView digest)[2 * i] = hexChar (digest[i].extractLsb' 4 4) := by
  simp [hexView]

/-- The character at an odd position shows the low nibble of its byte (R192). -/
theorem hexView_getElem_odd (digest : Vector Byte 32) {i : Nat} (hi : i < 32) :
    (hexView digest)[2 * i + 1] = hexChar (digest[i].extractLsb' 0 4) := by
  have hbyte : (2 * i + 1) / 2 = i := by omega
  simp [hexView, hbyte]

/-- Settles O36: each position is the even or the odd one of its byte, and shows the digit of that nibble. -/
theorem hexIsTheLowercaseDigest : Obligations.HexIsTheLowercaseDigest := by
  refine ⟨fun digest i hi => ⟨?high, ?low⟩, fun digest j hj => ?digit⟩
  case high => rw [hexView_getElem_even digest hi, hexChar_toNat, highNibble_toNat]
  case low => rw [hexView_getElem_odd digest hi, hexChar_toNat, lowNibble_toNat]
  case digit =>
    obtain ⟨i, rfl | rfl⟩ := Nat.even_or_odd' j
    · simpa only [hexView_getElem_even digest (show i < 32 by omega)] using hexChar_range _
    · simpa only [hexView_getElem_odd digest (show i < 32 by omega)] using hexChar_range _

/-! ### The bytes of the digest (R190) -/

/-- A byte of `be32_bytes` as a number: the most significant one stands first (R11). -/
theorem be32Bytes_getElem_toNat (w : Word) {j : Nat} (hj : j < 4) :
    (be32Bytes w)[j].toNat = w.toNat / 2 ^ (24 - 8 * j) % 256 := by
  have hbyte : (be32Bytes w)[j] = w.extractLsb' (24 - 8 * j) 8 := by
    interval_cases j <;> rfl
  rw [hbyte, BitVec.extractLsb'_toNat, Nat.shiftRight_eq_div_pow]

/-- Word `i` of the state fills the bytes `4i` to `4i + 3` of the digest (R190). -/
theorem serialize_getElem (h : HashState) {i j : Nat} (hi : i < 8) (hj : j < 4) :
    (serialize h)[4 * i + j] = (be32Bytes h[i])[j] := by
  interval_cases i <;> interval_cases j <;> rfl

/-- Settles O43: by the word the byte belongs to, then by the byte's place in it. -/
theorem serializeIsBigEndian : Obligations.SerializeIsBigEndian := by
  intro h i j hi hj
  rw [serialize_getElem h hi hj, be32Bytes_getElem_toNat h[i] hj]

/-! ### The constants and the digest of a message (R160, R161, R194) -/

/-- The primes of R160, from whose roots `K` and `IV` are taken. -/
def constantPrimes : List Nat := [
  2, 3, 5, 7, 11, 13, 17, 19, 23, 29, 31, 37, 41, 43, 47, 53, 59, 61, 67, 71, 73, 79, 83, 89, 97, 101, 103, 107, 109,
  113, 127, 131, 137, 139, 149, 151, 157, 163, 167, 173, 179, 181, 191, 193, 197, 199, 211, 223, 227, 229, 233, 239,
  241, 251, 257, 263, 269, 271, 277, 281, 283, 293, 307, 311]

/-- They are all the primes below 312. -/
theorem filter_prime_eq_constantPrimes :
    ((List.range 312).filter fun n => 2 ≤ n ∧ ∀ d < n, 2 ≤ d → n % d ≠ 0) = constantPrimes := by
  decide +kernel

/-- Each word of `K` is the fractional part of a cube root whose whole part is at most 6, the root of 311 being below
7 (R160). -/
theorem K_cubeRoot_fraction : ∀ i (hi : i < 64), ∃ whole < 7,
    (whole * 2 ^ 32 + K[i].toNat) ^ 3 ≤ constantPrimes.getD i 0 * 2 ^ 96 ∧
    constantPrimes.getD i 0 * 2 ^ 96 < (whole * 2 ^ 32 + K[i].toNat + 1) ^ 3 := by
  decide +kernel

/-- Each word of `IV` is the fractional part of a square root whose whole part is at most 4, the root of 19 being below
5 (R161). -/
theorem IV_squareRoot_fraction : ∀ i (hi : i < 8), ∃ whole < 5,
    (whole * 2 ^ 32 + IV[i].toNat) ^ 2 ≤ constantPrimes.getD i 0 * 2 ^ 64 ∧
    constantPrimes.getD i 0 * 2 ^ 64 < (whole * 2 ^ 32 + IV[i].toNat + 1) ^ 2 := by
  decide +kernel

/-- The word behind the whole part of a root in units of `2^-32` is the root's fractional part. -/
theorem toNat_eq_root_mod (whole : Nat) (w : Word) : w.toNat = (whole * 2 ^ 32 + w.toNat) % 2 ^ 32 := by
  have hw := w.isLt
  omega

/-- The digest of "abc" is that of 95_test_vectors.md, section 2.5. -/
theorem sha256_abc_toNat :
    (sha256 [0x61, 0x62, 0x63]).toList.foldl (fun acc b => acc * 256 + b.toNat) 0 =
      0xba7816bf_8f01cfea_414140de_5dae2223_b00361a3_96177a9c_b410ff61_f20015ad := by
  decide +kernel

/-- Settles O47: R194's loop is `BLOCK_STEP*`, and the witness of each root is its whole part with the constant behind
it. -/
theorem digestIsBlockStepStarOfPad : Obligations.DigestIsBlockStepStarOfPad := by
  refine ⟨sha256_eq_serialize, ?constants, sha256_abc_toNat⟩
  case constants =>
    rw [filter_prime_eq_constantPrimes]
    refine ⟨rfl, fun i hi => ?cube, fun i hi => ?square⟩
    case cube =>
      obtain ⟨whole, -, hle, hlt⟩ := K_cubeRoot_fraction i hi
      exact ⟨_, hle, hlt, toNat_eq_root_mod whole K[i]⟩
    case square =>
      obtain ⟨whole, -, hle, hlt⟩ := IV_squareRoot_fraction i hi
      exact ⟨_, hle, hlt, toNat_eq_root_mod whole IV[i]⟩

/-! ### The reads at the end of a hash (R55, R76) -/

/-- The addresses of `readMoves`: `n` of them in increasing order from `first` (R76). -/
def readAddresses (first n : Nat) : List Byte := (List.range n).map fun i => BitVec.ofNat 8 (first + i)

@[simp] theorem readAddresses_length (first n : Nat) : (readAddresses first n).length = n := by
  simp [readAddresses]

theorem readMoves_eq_map_read (first n : Nat) : readMoves first n = (readAddresses first n).map .read := by
  simp [readMoves, readAddresses]

/-- The state whose host has read the addresses `as` and has the moves `rest` to come. -/
def afterReads (as : List Byte) (rest : List HostMove) (s : State) : State :=
  { s with moves := rest, readings := s.readings ++ as.map (rdRead · s) }

@[simp] theorem afterReads_busy (as : List Byte) (ms : List HostMove) (s : State) :
    (afterReads as ms s).busy = s.busy := rfl
@[simp] theorem afterReads_digest (as : List Byte) (ms : List HostMove) (s : State) :
    (afterReads as ms s).digest = s.digest := rfl
@[simp] theorem afterReads_moves (as : List Byte) (ms : List HostMove) (s : State) :
    (afterReads as ms s).moves = ms := rfl
@[simp] theorem afterReads_readings (as : List Byte) (ms : List HostMove) (s : State) :
    (afterReads as ms s).readings = s.readings ++ as.map (rdRead · s) := rfl

@[simp] theorem afterReads_nil (s : State) : afterReads [] s.moves s = s := by simp [afterReads]

/-- A step of an idle state whose host reads takes the byte at the address (R55). -/
theorem step_read {s : State} {a : Byte} {rest : List HostMove} (hbusy : s.busy = none)
    (hmoves : s.moves = .read a :: rest) : step s = .next (afterReads [a] rest s) := by
  simp [step, transaction, passEdge, hbusy, hmoves, setMoves, takeReading, afterReads]

/-- With BUSY = 0 a read shows neither what the host does next nor what it has read. -/
theorem rdRead_afterReads {s : State} (hbusy : s.busy = none) (as : List Byte) (rest : List HostMove) (b : Byte) :
    rdRead b (afterReads as rest s) = rdRead b s := by
  rw [rdRead_of_idle hbusy, rdRead_of_idle (by simpa using hbusy)]
  rfl

theorem afterReads_cons {s : State} (hbusy : s.busy = none) (a : Byte) (as : List Byte) (ms rest : List HostMove) :
    afterReads as rest (afterReads [a] ms s) = afterReads (a :: as) rest s := by
  rw [afterReads, funext (rdRead_afterReads hbusy [a] ms)]
  simp [afterReads]

/-- The reads take one step each, collect their bytes in order and change nothing else. -/
theorem run_reads (as : List Byte) {s : State} {rest : List HostMove} (hbusy : s.busy = none)
    (hmoves : s.moves = as.map .read ++ rest) : core.run as.length s = .next (afterReads as rest s) := by
  induction as generalizing s with
  | nil =>
    obtain rfl : s.moves = rest := by simpa using hmoves
    rw [afterReads_nil]
    rfl
  | cons a as ih =>
    have hstep : step s = .next (afterReads [a] (as.map .read ++ rest) s) := step_read hbusy hmoves
    have hrest := ih (s := afterReads [a] (as.map .read ++ rest) s) (by simpa using hbusy) (by simp)
    rw [afterReads_cons hbusy] at hrest
    rw [List.length_cons, Nat.add_comm, run_add (run_one (M := core) hstep)]
    exact hrest

/-- INIT, the ABSORBs of `m`, FINAL, WAIT and `n` reads (R76) end, with the digest of `m`, in a state whose read port
shows the bytes the host has read. -/
theorem run_hashMoves_readMoves {s : State} {m : List Byte} {rest : List HostMove} (first n : Nat)
    (hbusy : s.busy = none) (herr : s.err = false) (hlen : m.length ≤ 2 ^ 61 - 1)
    (hmoves : s.moves = hashMoves m ++ readMoves first n ++ rest) :
    ∃ t : State, core.run (m.length + 3 + n) s = .next t ∧
      t.digest = sha256 m ∧ t.done = true ∧ t.err = false ∧ t.len.toNat = m.length ∧ t.fill = 0 ∧
      t.busy = none ∧ t.moves = rest ∧ t.readings = s.readings ++ (readAddresses first n).map (rdRead · t) := by
  rw [List.append_assoc] at hmoves
  obtain ⟨u, hu, huread, hhash⟩ := run_hashMoves hbusy herr hlen hmoves
  have hidle : (setMoves (readMoves first n ++ rest) (finishMessage u)).busy = none := hu.idle
  have hreads := run_reads (readAddresses first n) (rest := rest) hidle
    (by rw [setMoves_moves, readMoves_eq_map_read])
  rw [readAddresses_length] at hreads
  refine ⟨_, (run_add hhash n).trans hreads, ?digest, rfl, hu.noErr, hu.represents.len_eq, rfl, hu.idle, rfl, ?read⟩
  case digest =>
    rw [afterReads_digest, setMoves_digest]
    exact finishMessage_digest_eq_sha256 hu.represents hu.absorbing
  case read =>
    rw [funext (rdRead_afterReads hidle _ rest), afterReads_readings, setMoves_readings, finishMessage_readings, huread]

/-- The bytes read from `first` on are the list `bytes` when each address shows the byte of its place. -/
theorem map_rdRead_readAddresses {s : State} {n : Nat} (first : Nat) (bytes : Vector Byte n)
    (h : ∀ i (hi : i < n), rdRead (BitVec.ofNat 8 (first + i)) s = bytes[i]) :
    (readAddresses first n).map (rdRead · s) = bytes.toList := by
  apply List.ext_getElem
  · simp
  · intro i hi _
    simpa [readAddresses] using h i (by simpa using hi)

/-- With BUSY = 0 the addresses of `readDigest` show DIGEST, in order (R55, R56). -/
theorem map_rdRead_digest {s : State} (hbusy : s.busy = none) :
    (readAddresses 0x20 32).map (rdRead · s) = s.digest.toList :=
  map_rdRead_readAddresses 0x20 s.digest fun i hi => by
    rw [rdRead_ofNat_of_idle hbusy (by omega), rdIdle_digest s hi]

/-- With BUSY = 0 the addresses of `readHex` show HEX, in order (R55, R56). -/
theorem map_rdRead_hex {s : State} (hbusy : s.busy = none) :
    (readAddresses 0x40 64).map (rdRead · s) = (hexView s.digest).toList :=
  map_rdRead_readAddresses 0x40 (hexView s.digest) fun j hj => by
    rw [rdRead_ofNat_of_idle hbusy (by omega), rdIdle_hex s hj]

/-- Settles O53: after the hash the read port shows the digest at the addresses of either pseudo-instruction. -/
theorem hashBytesGivesSha256 : Obligations.HashBytesGivesSha256 := by
  refine ⟨fun s m rest hbusy herr hlen hmoves => ?bytes, fun s text rest hbusy herr hlen hmoves => ?text⟩
  case bytes =>
    obtain ⟨t, hrun, hdigest, hdone, herr', hlen', hfill, hidle, hrest, hread⟩ :=
      run_hashMoves_readMoves 0x20 32 hbusy herr hlen hmoves
    rw [map_rdRead_digest hidle, hdigest] at hread
    exact ⟨t, hrun, hdigest, hdone, herr', hlen', hfill, hidle, hrest, hread⟩
  case text =>
    obtain ⟨t, hrun, hdigest, hdone, herr', -, -, hidle, hrest, hread⟩ :=
      run_hashMoves_readMoves 0x40 64 hbusy herr hlen hmoves
    rw [map_rdRead_hex hidle, hdigest] at hread
    exact ⟨t, hrun, hdigest, hdone, herr', hidle, hrest, hread⟩

end Sys2Proof.Machine

namespace Sys2Proof.Machine

/-! ### The faults of the CORE, as the effects of a step or an edge (60_exceptions.md) -/

/-- While ERR = 1 an accepted word has no effect (R217). -/
theorem Effect.eq_of_err {runs : Instr → Prop} {r t : State} (heffect : Effect runs r t) (herr : r.err = true) :
    t = r := by
  cases heffect with
  | unchanged => rfl
  | faulted h | started _ h | stored _ h | filled _ h | finished _ h => simp [herr] at h

/-- An effect that sets ERR is the fault action (R212). -/
theorem Effect.eq_raiseFault {runs : Instr → Prop} {r t : State} (heffect : Effect runs r t) (hr : r.err = false)
    (ht : t.err = true) : ∃ c, c ≠ .none ∧ t = raiseFault c r := by
  cases heffect with
  | faulted _ hcause => exact ⟨_, hcause, rfl⟩
  | unchanged | started | stored | filled | finished => simp [hr] at ht

theorem busyEdge_effect {p : InFlight} {s t : State} (h : busyEdge p s = .next t) :
    ∃ r, r.registers = s.registers ∧ Effect (fun _ => True) r t := by
  unfold busyEdge at h
  split at h
  case isTrue => exact ⟨release (passEdge s), by simp, exec_effect trivial h⟩
  case isFalse =>
    obtain rfl := next_inj.mp h
    exact ⟨_, tick_registers p s, .unchanged⟩

theorem acceptEdge_effect {tm : Timing} {c : CmdWord} {s t : State} (h : acceptEdge tm c s = .next t) :
    ∃ r, r.registers = s.registers ∧ Effect (fun _ => True) r t := by
  obtain ⟨_, -, hexec⟩ | ⟨_, -, -, hexec⟩ | ⟨i, -, -, rfl⟩ := acceptEdge_cases h
  · exact ⟨s, rfl, execIllegal_effect hexec⟩
  · exact ⟨s, rfl, exec_effect trivial hexec⟩
  · exact ⟨_, occupy_registers _ s, .unchanged⟩

/-- An edge is a reset, or its effect takes place in a state with the registers of the first one. -/
theorem edge_effect {tm : Timing} {s t : State} (h : edge tm s = .next t) :
    (s.moves.head? = some .reset ∧ ∃ r, t = resetEdge r) ∨
    ∃ r, r.registers = s.registers ∧ Effect (fun _ => True) r t := by
  obtain ⟨rest, hmoves, rfl⟩ | ⟨-, p, -, hp⟩ | ⟨-, c, rest, -, haccept⟩ | ⟨-, -, -, rfl⟩ := edge_cases h
  · exact .inl ⟨by simp [hmoves], _, rfl⟩
  · exact .inr (busyEdge_effect hp)
  · exact .inr (acceptEdge_effect (s := setMoves rest s) haccept)
  · exact .inr ⟨_, passEdge_registers s, .unchanged⟩

/-- While ERR = 1 every effect but a reset keeps ERR and CAUSE (R217, R218). -/
theorem err_and_cause_of_effect {runs : Instr → Prop} {s t : State}
    (h : (s.moves.head? = some .reset ∧ ∃ r, t = resetEdge r) ∨ ∃ r, r.registers = s.registers ∧ Effect runs r t)
    (herr : s.err = true) (hrst : s.moves.head? ≠ some .reset) : t.err = true ∧ t.cause = s.cause := by
  obtain ⟨hreset, -⟩ | ⟨r, hr, heffect⟩ := h
  · exact absurd hreset hrst
  · have hrerr : r.err = true := (congrArg Registers.err hr).trans herr
    obtain rfl := heffect.eq_of_err hrerr
    exact ⟨hrerr, congrArg Registers.cause hr⟩

/-- Settles O28: but for a reset, a step and an edge have an effect of a command, and with ERR = 1 there is none. -/
theorem onlyResetClearsTheError : Obligations.OnlyResetClearsTheError :=
  ⟨fun _ _ herr hstep => err_and_cause_of_effect (step_effect hstep) herr,
    fun _ _ _ herr hedge => err_and_cause_of_effect (edge_effect hedge) herr⟩

theorem accept_effect {c : CmdWord} {s t : State} (h : accept c s = .next t) : Effect (fun _ => True) s t := by
  obtain ⟨i, -, hexec⟩ | ⟨_, -, hexec⟩ := accept_cases h
  · exact exec_effect trivial hexec
  · exact execIllegal_effect hexec

/-- A step that raises a fault is the fault action, on the state whose command in flight is released or whose word is
taken (R212, R236). -/
theorem step_raises_fault {s t : State} (hs : s.err = false) (hstep : step s = .next t) (ht : t.err = true) :
    ∃ c, c ≠ .none ∧ (t = raiseFault c (release s) ∨ ∃ rest, t = raiseFault c (setMoves rest s)) := by
  obtain ⟨rest, -, rfl⟩ | ⟨-, p, -, hexec⟩ | ⟨-, w, rest, -, haccept⟩ | ⟨-, -, -, rfl⟩ := step_cases hstep
  · simp at ht
  · have heffect : Effect (fun _ => True) (release s) t := exec_effect trivial hexec
    obtain ⟨c, hc, rfl⟩ := heffect.eq_raiseFault hs ht
    exact ⟨c, hc, .inl rfl⟩
  · obtain ⟨c, hc, rfl⟩ := (accept_effect haccept).eq_raiseFault hs ht
    exact ⟨c, hc, .inr ⟨rest, rfl⟩⟩
  · simp [hs] at ht

/-- Settles O26: the fault action writes ERR and CAUSE, and neither BUSY nor the host's moves are spoken of. -/
theorem faultsArePrecise : Obligations.FaultsArePrecise := by
  intro s t hs hstep ht
  obtain ⟨c, hc, rfl | ⟨rest, rfl⟩⟩ := step_raises_fault hs hstep ht
  · exact ⟨hc, rfl, rfl, rfl, rfl⟩
  · exact ⟨hc, rfl, rfl, rfl, rfl⟩

/-! ### Words presented while ERR = 1 (R217) -/

/-- An edge of an idle machine accepts the word its host presents (R235). -/
theorem edge_command {tm : Timing} {s : State} {c : CmdWord} {rest : List HostMove} (hbusy : s.busy = none)
    (hmoves : s.moves = .command c :: rest) : edge tm s = acceptEdge tm c (setMoves rest s) := by
  simp [edge, hbusy, hmoves]

/-- While ERR = 1 a word that is accepted, as a command or as an illegal word, leaves the state as it is. -/
theorem eq_next_of_err {o : Host.Outcome State Fault Refusal} {s : State} (htotal : ∃ t, o = .next t)
    (heffect : ∀ t, o = .next t → Effect (fun _ => True) s t) (herr : s.err = true) : o = .next s := by
  obtain ⟨t, ht⟩ := htotal
  rw [ht, (heffect t ht).eq_of_err herr]

theorem accept_of_err {s : State} (herr : s.err = true) (c : CmdWord) : accept c s = .next s :=
  eq_next_of_err (accept_total c s) (fun _ => accept_effect) herr

/-- A word accepted while ERR = 1 takes one cycle (R236), whatever the timing. -/
theorem acceptEdge_of_err {s : State} (herr : s.err = true) (tm : Timing) (c : CmdWord) :
    acceptEdge tm c s = .next s := by
  refine eq_next_of_err (acceptEdge_total tm c s) (fun t h => ?_) herr
  obtain ⟨_, -, hexec⟩ | ⟨_, -, -, hexec⟩ | ⟨i, -, hlatency, -⟩ := acceptEdge_cases h
  · exact execIllegal_effect hexec
  · exact exec_effect trivial hexec
  · obtain ⟨hno, -⟩ := accepted_of_one_lt_latency hlatency
    simp [herr] at hno

/-- Settles O27: the word is accepted in both machines, and accepting it answers the state it is accepted in. -/
theorem wordsAreIgnoredAfterAFault : Obligations.WordsAreIgnoredAfterAFault := by
  intro tm s c rest herr hbusy hmoves
  refine ⟨?step, ?edge, fun hrst => (cmdReady_eq_true_iff _).mpr ⟨hbusy, hrst⟩⟩
  case step => rw [step_command hbusy hmoves, accept_of_err (s := setMoves rest s) herr]
  case edge => rw [edge_command hbusy hmoves, acceptEdge_of_err (s := setMoves rest s) herr]

/-! ### The conditions of the faults (R213 to R216) -/

theorem accept_of_decode_error {c : CmdWord} {e : Illegal} (hdecode : decode c = .error e) (s : State) :
    accept c s = execIllegal s := by
  simp [accept, hdecode]

theorem execIllegal_of_noErr {s : State} (herr : s.err = false) :
    execIllegal s = .next (raiseFault .illegal s) := by
  simp [execIllegal, unlessErr, herr]

/-- An illegal word raises ILLEGAL in either phase (R214). -/
theorem accept_illegal {s : State} {c : CmdWord} {e : Illegal} (herr : s.err = false) (hdecode : decode c = .error e) :
    accept c s = .next (raiseFault .illegal s) :=
  (accept_of_decode_error hdecode s).trans (execIllegal_of_noErr herr)

/-- Settles O23: the step accepts the illegal word, and its meaning is the fault action. -/
theorem illegalWordRaisesTheFault : Obligations.IllegalWordRaisesTheFault :=
  fun s _ rest _ hbusy herr hmoves hdecode =>
    (step_command hbusy hmoves).trans (accept_illegal (s := setMoves rest s) herr hdecode)

/-- Settles O24: ABSORB and FINAL test DONE first; INIT and NOP do not test it. -/
theorem finishedMessageIsProtected : Obligations.FinishedMessageIsProtected := by
  intro s herr hdone
  obtain ⟨-, hnop, -⟩ := nopChangesNothing
  exact ⟨exec_absorb_of_done herr hdone, exec_final_of_done herr hdone,
    ⟨startMessage s, exec_init_of_noErr herr, herr⟩, ⟨s, hnop s, herr⟩⟩

/-- A command with no fault condition leaves ERR and CAUSE alone (R104 to R107). -/
theorem exec_keeps_err_and_cause {i : Instr} {s t : State} (hfault : commandFault i s = none)
    (hexec : exec i s = .next t) : t.err = s.err ∧ t.cause = s.cause := by
  cases i with
  | nop =>
    obtain rfl := execNop_cases hexec
    exact ⟨rfl, rfl⟩
  | init =>
    obtain ⟨herr, hcause, -⟩ := frameOfInit s t hexec
    exact ⟨herr, hcause⟩
  | absorb d =>
    obtain ⟨-, -, -, -, -, -, -, hkeeps, -⟩ := frameOfAbsorb d s t hexec
    exact hkeeps hfault
  | final =>
    obtain ⟨-, -, -, -, hkeeps, -⟩ := frameOfFinal s t hexec
    exact hkeeps hfault

theorem err_and_cause_of_raiseFault {o : Host.Outcome State Fault Refusal} {c : Cause} {s t : State}
    (hraise : o = .next (raiseFault c s)) (hnext : o = .next t) : t.err = true ∧ t.cause = c := by
  obtain rfl := next_inj.mp (hraise.symm.trans hnext)
  exact ⟨rfl, rfl⟩

/-- Settles O25: each condition by the equation of the word's meaning under it. -/
theorem faultPriority : Obligations.FaultPriority := by
  intro s c rest hbusy hmoves
  obtain ⟨t, ht⟩ := accept_total c (setMoves rest s)
  refine ⟨t, (step_command hbusy hmoves).trans ht, fun herr => ?ignored, fun herr ⟨e, hdecode⟩ => ?illegal,
    fun herr hcommand hdone => ?protocol, fun herr ⟨d, hdecode⟩ hdone hfull => ?lenOverflow,
    fun herr ⟨i, hdecode, hfault⟩ => ?none⟩
  case ignored =>
    obtain rfl := next_inj.mp ((accept_of_err (s := setMoves rest s) herr c).symm.trans ht)
    exact ⟨herr, rfl⟩
  case illegal => exact err_and_cause_of_raiseFault (accept_illegal (s := setMoves rest s) herr hdecode) ht
  case protocol =>
    obtain ⟨d, hdecode⟩ | hdecode := hcommand
    all_goals rw [accept_of_decode_ok hdecode] at ht
    · exact err_and_cause_of_raiseFault (exec_absorb_of_done (s := setMoves rest s) herr hdone d) ht
    · exact err_and_cause_of_raiseFault (exec_final_of_done (s := setMoves rest s) herr hdone) ht
  case lenOverflow =>
    rw [accept_of_decode_ok hdecode] at ht
    exact err_and_cause_of_raiseFault (exec_absorb_of_full (s := setMoves rest s) herr hdone hfull d) ht
  case none =>
    rw [accept_of_decode_ok hdecode] at ht
    obtain ⟨herr', hcause⟩ := exec_keeps_err_and_cause (s := setMoves rest s) hfault ht
    exact ⟨herr'.trans herr, hcause⟩

/-! ### The longest message (R213) -/

/-- The last of the tail blocks ends in the bit length (R108). -/
theorem padTail_last_drop (t : List Byte) (len : BitVec 64) :
    (padTail t len).last.toList.drop 56 = be64Bytes (8 * len) := by
  by_cases h : t.length ≤ 55
  · rw [padTail_of_le h, TailBlocks.last, Option.getD_none, blockOf_toList _ (by simp; omega),
      List.drop_left' (by simp; omega)]
  · rw [padTail_of_lt (Nat.lt_of_not_le h), TailBlocks.last, Option.getD_some, blockOf_toList _ (by simp),
      List.drop_left' (by simp)]

/-- Settles O22: `L_MAX` is ABSORB's guard, one byte less is not, and FINAL's last block ends in the bit length. -/
theorem lengthOverflowIsRefused : Obligations.LengthOverflowIsRefused := by
  refine ⟨fun d s herr hdone hlen => exec_absorb_of_full herr hdone (eq_lMax_iff.mpr hlen) d,
    fun d s herr hdone hlen => ?longest, fun s herr hdone hlen =>
      ⟨finishMessage s, exec_final_of_absorbing herr hdone, herr, rfl, ?lengthField⟩⟩
  case longest =>
    have hroom : s.len ≠ lMax := by rw [Ne, eq_lMax_iff]; omega
    have hnext : (s.len + 1).toNat = 2 ^ 61 - 1 := by bv_omega
    rw [exec_absorb_of_absorbing herr hdone hroom d]
    split
    case isTrue => exact ⟨_, rfl, herr, hnext⟩
    case isFalse => exact ⟨_, rfl, herr, hnext⟩
  case lengthField =>
    have hmax : s.len = lMax := eq_lMax_iff.mpr hlen
    rw [finishMessage_buf, hmax, padTail_last_drop]
    decide

end Sys2Proof.Machine

namespace Sys2Proof.Machine

/-! ### Each kind of edge, beside the step it refines (R230, R235, R236) -/

theorem edge_reset {tm : Timing} {s : State} {rest : List HostMove} (hmoves : s.moves = .reset :: rest) :
    edge tm s = .next (resetEdge (setMoves rest s)) := by
  simp [edge, hmoves]

theorem edge_busy {tm : Timing} {s : State} {p : InFlight} (hrst : s.moves.head? ≠ some .reset)
    (hbusy : s.busy = some p) : edge tm s = busyEdge p s := by
  unfold edge
  split <;> simp_all

theorem edge_pass {tm : Timing} {s : State} (hbusy : s.busy = none) (hrst : s.moves.head? ≠ some .reset)
    (hcmd : ∀ c, s.moves.head? ≠ some (.command c)) : edge tm s = .next (passEdge s) := by
  unfold edge
  split <;> simp_all

/-- A command of at most one cycle takes its whole effect at the acceptance edge (R236). -/
theorem acceptEdge_eq_accept {tm : Timing} {c : CmdWord} {s : State}
    (hone : ∀ i, decode c = .ok i → latency tm i s ≤ 1) : acceptEdge tm c s = accept c s := by
  cases hdecode : decode c with
  | error e => simp [acceptEdge, accept, hdecode]
  | ok i => simp [acceptEdge, accept, hdecode, hone i hdecode]

/-- With no command in flight an edge is a step, unless it accepts a command of several cycles. -/
theorem edge_eq_step_of_idle {tm : Timing} {s : State} (hbusy : s.busy = none)
    (hone : ∀ c rest i, s.moves = .command c :: rest → decode c = .ok i → latency tm i s ≤ 1) :
    edge tm s = step s := by
  by_cases hrst : s.moves.head? = some .reset
  · obtain ⟨rest, hmoves⟩ := List.head?_eq_some_iff.mp hrst
    rw [edge_reset hmoves, step_reset hmoves]
  by_cases hcmd : ∃ c, s.moves.head? = some (.command c)
  · obtain ⟨c, hc⟩ := hcmd
    obtain ⟨rest, hmoves⟩ := List.head?_eq_some_iff.mp hc
    rw [edge_command hbusy hmoves, step_command hbusy hmoves]
    exact acceptEdge_eq_accept (s := setMoves rest s) fun i => hone c rest i hmoves
  · rw [edge_pass hbusy hrst (not_exists.mp hcmd), step_pass hbusy hrst (not_exists.mp hcmd)]

/-! ### The cycles of a command (R236, R240, R242) -/

theorem latency_of_fault {tm : Timing} {i : Instr} {s : State}
    (h : s.err = true ∨ (commandFault i s).isSome = true) : latency tm i s = 1 :=
  if_pos h

/-- The parameter that gives the cycles of a command that takes effect, by the command and FILL (R240). -/
def timingParameter (tm : Timing) (s : State) : Instr → Nat
  | .nop => tm.tAccept
  | .init => tm.tAccept
  | .absorb _ => if s.fill = 63 then tm.tBlock else tm.tAccept
  | .final => if s.fill ≤ 55 then tm.tFinal1 else tm.tFinal2

theorem latency_of_legal {tm : Timing} {i : Instr} {s : State} (herr : s.err = false)
    (hfault : commandFault i s = none) : latency tm i s = timingParameter tm s i := by
  have hlegal : ¬(s.err = true ∨ (commandFault i s).isSome = true) := by simp [herr, hfault]
  cases i <;> exact if_neg hlegal

/-- The cycles of any command are 1 or one of the four parameters. -/
theorem latency_mem (tm : Timing) (i : Instr) (s : State) :
    latency tm i s ∈ [1, tm.tAccept, tm.tBlock, tm.tFinal1, tm.tFinal2] := by
  by_cases hfault : s.err = true ∨ (commandFault i s).isSome = true
  · simp [latency_of_fault hfault]
  · obtain ⟨herr, hnone⟩ : s.err = false ∧ commandFault i s = none := by simpa using hfault
    rw [latency_of_legal herr hnone]
    cases i with
    | nop | init => simp [timingParameter]
    | absorb d | final => rw [timingParameter]; split <;> simp

theorem timing_wf_iff (tm : Timing) :
    tm.wf = true ↔ 1 ≤ tm.tAccept ∧ 1 ≤ tm.tBlock ∧ 1 ≤ tm.tFinal1 ∧ 1 ≤ tm.tFinal2 := by
  simp [Timing.wf, and_assoc]

theorem one_le_longestCommand {tm : Timing} (hwf : tm.wf = true) : 1 ≤ longestCommand tm := by
  obtain ⟨haccept, -⟩ := (timing_wf_iff tm).mp hwf
  unfold longestCommand
  omega

theorem one_le_latency {tm : Timing} (hwf : tm.wf = true) (i : Instr) (s : State) : 1 ≤ latency tm i s := by
  obtain ⟨haccept, hblock, hfinal1, hfinal2⟩ := (timing_wf_iff tm).mp hwf
  have hmem := latency_mem tm i s
  simp only [List.mem_cons, List.not_mem_nil, or_false] at hmem
  omega

theorem latency_le_longestCommand {tm : Timing} (hwf : tm.wf = true) (i : Instr) (s : State) :
    latency tm i s ≤ longestCommand tm := by
  have hone := one_le_longestCommand hwf
  have hmem := latency_mem tm i s
  simp only [List.mem_cons, List.not_mem_nil, or_false] at hmem
  unfold longestCommand at *
  omega

/-- Settles O57: every latency is then 1, so no edge accepts a command of several cycles. -/
theorem oneCycleEdgeIsAStep : Obligations.OneCycleEdgeIsAStep := by
  intro s hbusy
  refine edge_eq_step_of_idle hbusy fun _ _ i _ _ => le_of_eq ?_
  simpa using latency_mem ⟨1, 1, 1, 1⟩ i s

/-- Settles O58: an illegal word decodes to no command, and an ignored or faulting command has the latency 1. -/
theorem faultsTakeOneCycle : Obligations.FaultsTakeOneCycle := by
  intro tm s c rest hbusy hmoves hfault
  refine edge_eq_step_of_idle hbusy fun c' rest' i hmoves' hdecode => le_of_eq (latency_of_fault ?_)
  obtain ⟨rfl, -⟩ : c = c' ∧ rest = rest' := by simpa using hmoves.symm.trans hmoves'
  obtain herr | ⟨e, hillegal⟩ | ⟨j, hj, hsome⟩ := hfault
  · exact .inl herr
  · simp [hillegal] at hdecode
  · obtain rfl : j = i := Except.ok.inj (hj.symm.trans hdecode)
    exact .inr hsome

/-! ### The host while a command is in flight (R77, R235, R237) -/

theorem Effect.moves_eq {runs : Instr → Prop} {r t : State} (h : Effect runs r t) : t.moves = r.moves := by
  cases h <;> rfl

@[simp] theorem tick_moves (p : InFlight) (s : State) : (tick p s).moves = (passEdge s).moves := rfl
@[simp] theorem tick_readings (p : InFlight) (s : State) : (tick p s).readings = (passEdge s).readings := rfl

/-- What the host does next it goes on doing while BUSY = 1: it holds a word or waits, or has nothing to do. -/
def HeldWhileBusy (ms : List HostMove) : Prop := ∀ m ∈ ms.head?, m = .wait ∨ ∃ c, m = .command c

theorem heldWhileBusy_command (c : CmdWord) (rest : List HostMove) : HeldWhileBusy (.command c :: rest) :=
  fun _ h => .inr ⟨c, (Option.some.inj h).symm⟩

theorem heldWhileBusy_wait (rest : List HostMove) : HeldWhileBusy (.wait :: rest) :=
  fun _ h => .inl (Option.some.inj h).symm

theorem HeldWhileBusy.noReset {ms : List HostMove} (h : HeldWhileBusy ms) : ms.head? ≠ some .reset :=
  fun hrst => by simpa using h .reset hrst

theorem passEdge_of_held {s : State} (hbusy : s.isBusy = true) (hheld : HeldWhileBusy s.moves) : passEdge s = s := by
  cases hmoves : s.moves with
  | nil => simp [passEdge, hmoves]
  | cons m rest =>
    obtain rfl | ⟨c, rfl⟩ := hheld m (by simp [hmoves])
    · simp [passEdge, hmoves, hbusy]
    · simp [passEdge, hmoves]

/-- Settles O56: the busy edge counts or completes, and `passEdge` holds the word. -/
theorem nothingIsAcceptedWhileBusy : Obligations.NothingIsAcceptedWhileBusy := by
  intro tm s t p c rest hbusy hmoves hedge
  have hheld : HeldWhileBusy s.moves := hmoves ▸ heldWhileBusy_command c rest
  have hpass : passEdge s = s := passEdge_of_held (by simp [State.isBusy, hbusy]) hheld
  have hready : cmdReady s = false := by simp [cmdReady, State.isBusy, hbusy]
  rw [edge_busy hheld.noReset hbusy, busyEdge] at hedge
  split at hedge
  case isTrue hlast =>
    have heffect : Effect (fun _ => True) (release (passEdge s)) t := exec_effect trivial hedge
    refine ⟨hready, ?_, fun hmore => by omega, fun _ => heffect.busy_eq⟩
    rw [heffect.moves_eq, release_moves, hpass]
  case isFalse hmore =>
    obtain rfl := next_inj.mp hedge
    exact ⟨hready, by rw [tick_moves, hpass], fun _ => ⟨tick_registers p s, _, tick_busy p s, rfl⟩,
      fun hlast => absurd hlast hmore⟩

/-! ### A command of the clocked machine, from its acceptance to its completion (R236) -/

/-- A run of one step is the step. -/
theorem run_one_eq (M : Host.Core) (s : M.State) : M.run 1 s = M.step s := by
  simp only [Host.Core.run]
  cases M.step s <;> rfl

/-- An edge with more than one to come counts (R236). -/
theorem edge_inFlight {tm : Timing} {s : State} {p : InFlight} (hrst : s.moves.head? ≠ some .reset)
    (hbusy : s.busy = some p) (hmore : 1 < p.cyclesLeft) : edge tm s = .next (tick p s) := by
  rw [edge_busy hrst hbusy, busyEdge, if_neg (Nat.not_le.mpr hmore)]

/-- The last edge of a command is its meaning (R236). -/
theorem edge_last {tm : Timing} {s : State} {p : InFlight} (hrst : s.moves.head? ≠ some .reset)
    (hbusy : s.busy = some p) (hlast : p.cyclesLeft ≤ 1) :
    edge tm s = exec p.instr (release (passEdge s)) := by
  rw [edge_busy hrst hbusy, busyEdge, if_pos hlast, complete]

theorem edge_present {tm : Timing} {s : State} {i : Instr} {rest : List HostMove} (hbusy : s.busy = none)
    (hmoves : s.moves = present i :: rest) :
    edge tm s = if latency tm i s ≤ 1 then exec i (setMoves rest s)
      else .next (occupy { instr := i, cyclesLeft := latency tm i s - 1 } (setMoves rest s)) := by
  rw [edge_command hbusy hmoves]
  simp only [acceptEdge, decode_encode]
  rfl

/-- A condition on the host's moves and readings that rules a reset out and that an edge with BUSY = 1 keeps: what is
known of the host while a command is in flight. -/
structure KeptWhileBusy (P : List HostMove → List Byte → Prop) : Prop where
  noReset : ∀ ms rd, P ms rd → ms.head? ≠ some .reset
  pass : ∀ s : State, s.isBusy = true → P s.moves s.readings → P (passEdge s).moves (passEdge s).readings

/-- A host that holds a word or waits stays where it is. -/
theorem keptWhileBusy_held {ms : List HostMove} (hheld : HeldWhileBusy ms) (rd : List Byte) :
    KeptWhileBusy fun ms' rd' => ms' = ms ∧ rd' = rd where
  noReset := fun _ _ ⟨hms, _⟩ => hms ▸ hheld.noReset
  pass := fun s hbusy ⟨hms, hrd⟩ => by
    rw [passEdge_of_held hbusy (hms ▸ hheld)]
    exact ⟨hms, hrd⟩

/-- A host that will not reset the CORE will not while a command is in flight. -/
theorem keptWhileBusy_noReset : KeptWhileBusy fun ms _ => .reset ∉ ms where
  noReset := fun _ _ hms hrst => hms (List.mem_of_head? hrst)
  pass := fun s _ hms => by
    obtain hsame | ⟨htail, -⟩ := passEdge_moves s
    · rwa [hsame]
    · rw [htail]
      exact fun h => hms (List.mem_of_mem_tail h)

section Command

variable {tm : Timing} {P : List HostMove → List Byte → Prop} (hP : KeptWhileBusy P)
include hP

/-- A command in flight counts its edges down, and no register changes. -/
theorem clocked_run_inFlight {k : Nat} {s : State} {p : InFlight} (hbusy : s.busy = some p)
    (hs : P s.moves s.readings) (hk : k < p.cyclesLeft) :
    ∃ v : State, (clocked tm).run k s = .next v ∧ v.busy = some { p with cyclesLeft := p.cyclesLeft - k } ∧
      v.registers = s.registers ∧ P v.moves v.readings := by
  induction k generalizing s p with
  | zero => exact ⟨s, rfl, hbusy, rfl, hs⟩
  | succ k ih =>
    have hedge : edge tm s = .next (tick p s) := edge_inFlight (hP.noReset _ _ hs) hbusy (by omega)
    obtain ⟨v, hrun, hv, hregs, hhost⟩ :=
      ih (tick_busy p s) (hP.pass s (by simp [State.isBusy, hbusy]) hs) (show k < p.cyclesLeft - 1 by omega)
    refine ⟨v, ?_, ?_, hregs.trans (tick_registers p s), hhost⟩
    · rw [Nat.add_comm, run_add (run_one (M := clocked tm) hedge)]
      exact hrun
    · rw [hv, Nat.sub_sub, Nat.add_comm]

variable {s : State} {i : Instr} {rest : List HostMove}

/-- From its acceptance on a command is in flight until its last edge (R236). -/
theorem clocked_run_accepted {k : Nat} (hbusy : s.busy = none) (hmoves : s.moves = present i :: rest)
    (hs : P rest s.readings) (hpos : 0 < k) (hk : k < latency tm i s) :
    ∃ v : State, (clocked tm).run k s = .next v ∧
      v.busy = some { instr := i, cyclesLeft := latency tm i s - k } ∧ v.registers = s.registers ∧
      P v.moves v.readings := by
  obtain ⟨j, rfl⟩ := Nat.exists_eq_add_of_lt hpos
  have hedge := edge_present (tm := tm) hbusy hmoves
  rw [if_neg (by omega)] at hedge
  have hflight := occupy_busy { instr := i, cyclesLeft := latency tm i s - 1 } (setMoves rest s)
  obtain ⟨v, hrun, hv, hregs, hhost⟩ :=
    clocked_run_inFlight (tm := tm) hP hflight hs (show j < latency tm i s - 1 by omega)
  refine ⟨v, ?_, ?_, hregs, hhost⟩
  · rw [Nat.zero_add, Nat.add_comm, run_add (run_one (M := clocked tm) hedge)]
    exact hrun
  · rw [hv, Nat.sub_sub, Nat.zero_add, Nat.add_comm]

/-- After the cycles of its latency a command has its meaning in a state with the registers at its acceptance. -/
theorem clocked_run_latency (hbusy : s.busy = none) (hmoves : s.moves = present i :: rest) (hs : P rest s.readings)
    (hpos : 1 ≤ latency tm i s) :
    ∃ r : State, (clocked tm).run (latency tm i s) s = exec i r ∧ r.busy = none ∧ r.registers = s.registers ∧
      P r.moves r.readings := by
  obtain hone | hmore := hpos.eq_or_lt
  · have hedge := edge_present (tm := tm) hbusy hmoves
    rw [if_pos hone.ge] at hedge
    exact ⟨setMoves rest s, hone ▸ (run_one_eq (clocked tm) s).trans hedge, hbusy, rfl, hs⟩
  · obtain ⟨v, hrun, hv, hregs, hhost⟩ :=
      clocked_run_accepted (tm := tm) (k := latency tm i s - 1) hP hbusy hmoves hs (by omega) (by omega)
    have hlast : edge tm v = exec i (release (passEdge v)) := edge_last (hP.noReset _ _ hhost) hv (by simp only; omega)
    refine ⟨release (passEdge v), ?_, rfl, by simpa using hregs, hP.pass v (by simp [State.isBusy, hv]) hhost⟩
    have hcycles : latency tm i s = latency tm i s - 1 + 1 := by omega
    rw [hcycles, run_add hrun]
    exact (run_one_eq (clocked tm) v).trans hlast

end Command

/-- A command computes the registers it leaves from those it finds: these decide its branch, and what it writes. -/
theorem exec_registers_congr {i : Instr} {r s t u : State} (heq : r.registers = s.registers)
    (hr : exec i r = .next t) (hs : exec i s = .next u) : t.registers = u.registers := by
  cases r
  cases s
  simp only [State.registers, Registers.mk.injEq] at heq
  obtain ⟨rfl, rfl, rfl, rfl, rfl, rfl, rfl, rfl⟩ := heq
  cases i with
  | nop =>
    obtain rfl := execNop_cases hr
    obtain rfl := execNop_cases hs
    rfl
  | init | absorb _ | final =>
    simp only [exec, execInit, execAbsorb, execFinal, unlessErr] at hr hs
    split_ifs at hr hs
    all_goals
      obtain rfl := next_inj.mp hr
      obtain rfl := next_inj.mp hs
      rfl

/-- Settles O59: the cycles by R240, and at the last of them the meaning the step has, on the same registers. -/
theorem clockedCommandRefinesTheStep : Obligations.ClockedCommandRefinesTheStep := by
  intro tm s i rest hwf hbusy hmoves hreset
  refine ⟨fun h => latency_of_fault ?one, fun herr hfault => ?cycles, one_le_latency hwf i s,
    latency_le_longestCommand hwf i s, ?last, fun k hpos hk => ?before⟩
  case one => exact h.imp_right fun ⟨_, hc⟩ => hc ▸ rfl
  case cycles =>
    rw [latency_of_legal herr hfault]
    refine ⟨?instant, ?stored, ?filled, ?oneBlock, ?twoBlocks⟩
    case instant => rintro (rfl | rfl) <;> rfl
    case stored => rintro d rfl hfill; exact if_neg hfill
    case filled => rintro d rfl hfill; exact if_pos hfill
    case oneBlock => rintro rfl hfill; exact if_pos hfill
    case twoBlocks => rintro rfl hfill; exact if_neg (Nat.not_le.mpr hfill)
  case last =>
    obtain ⟨r, hrun, hidle, hregs, -⟩ :=
      clocked_run_latency (tm := tm) keptWhileBusy_noReset hbusy hmoves hreset (one_le_latency hwf i s)
    obtain ⟨t, ht⟩ := exec_total i (setMoves rest s)
    obtain ⟨u, hu⟩ := exec_total i r
    have heffect : Effect (fun _ => True) r u := exec_effect trivial hu
    exact ⟨t, u, (step_present hbusy hmoves).trans ht, hrun.trans hu, heffect.busy_eq.trans hidle,
      exec_registers_congr (s := setMoves rest s) hregs hu ht⟩
  case before =>
    obtain ⟨v, hrun, hv, hregs, -⟩ := clocked_run_accepted keptWhileBusy_noReset hbusy hmoves hreset hpos hk
    exact ⟨v, hrun, by simp [State.isBusy, hv], hregs⟩

/-! ### The clocked machine simulates the transaction machine, hidden state apart (R12, R236) -/

/-- From states that agree but for their hidden part, what does not read it leads to such states again. -/
theorem HiddenBlind.next {f : State → Host.Outcome State Fault Refusal} (hf : HiddenBlind f) {s s' t : State}
    (heq : eraseHidden s' = eraseHidden s) (hnext : f s = .next t) :
    ∃ t', f s' = .next t' ∧ eraseHidden t' = eraseHidden t := by
  have houtcome : eraseOutcome (f s') = .next (eraseHidden t) := by rw [hf s', heq, ← hf s, hnext, eraseOutcome]
  cases ho : f s' with
  | next t' =>
    rw [ho] at houtcome
    exact ⟨t', rfl, next_inj.mp houtcome⟩
  | fault r => cases r
  | refused r => simp [ho, eraseOutcome] at houtcome

theorem hiddenBlind_run (k : Nat) : HiddenBlind (core.run k) := by
  induction k with
  | zero => exact hiddenBlind_next fun _ => rfl
  | succ k ih =>
    intro s
    obtain ⟨t, hstep⟩ := step_total s
    obtain ⟨t', hstep', heq⟩ := hiddenBlind_step.next (s := s) (s' := eraseHidden s) rfl hstep
    rw [Nat.add_comm, run_add (run_one (M := core) hstep), run_add (run_one (M := core) hstep')]
    exact (ih t).trans (heq ▸ (ih t').symm)

/-- A step that accepts a command is simulated by the edges of its cycles, when the host holds its next move
meanwhile. -/
theorem clocked_simulates_command {tm : Timing} {s s' : State} {i : Instr} {rest : List HostMove} (hwf : tm.wf = true)
    (heq : eraseHidden s' = eraseHidden s) (hbusy : s.busy = none) (hmoves : s.moves = present i :: rest)
    (hheld : HeldWhileBusy rest) :
    ∃ (n : Nat) (t t' : State), n ≤ longestCommand tm ∧ step s = .next t ∧ (clocked tm).run n s' = .next t' ∧
      eraseHidden t' = eraseHidden t ∧ t.busy = none ∧ t.moves = rest := by
  obtain ⟨hregs, hbusy', hmoves', hreadings⟩ := eraseHidden_eq_iff.mp heq
  obtain ⟨r, hrun, hidle, hr, hrmoves, hrreadings⟩ :=
    clocked_run_latency (tm := tm) (keptWhileBusy_held hheld s'.readings) (hbusy'.trans hbusy) (hmoves'.trans hmoves)
      ⟨rfl, rfl⟩ (one_le_latency hwf i s')
  have hsame : eraseHidden r = eraseHidden (setMoves rest s) :=
    eraseHidden_eq_iff.mpr ⟨hr.trans hregs, hidle.trans hbusy.symm, hrmoves, hrreadings.trans hreadings⟩
  obtain ⟨t, ht⟩ := exec_total i (setMoves rest s)
  obtain ⟨t', ht', hnext⟩ := (hiddenBlind_exec i).next hsame ht
  have heffect : Effect (fun _ => True) (setMoves rest s) t := exec_effect trivial ht
  exact ⟨_, t, t', latency_le_longestCommand hwf i s', (step_present hbusy hmoves).trans ht, hrun.trans ht', hnext,
    heffect.busy_eq.trans hbusy, heffect.moves_eq⟩

theorem heldWhileBusy_presents (is : List Instr) (rest : List HostMove) :
    HeldWhileBusy (is.map present ++ .wait :: rest) := by
  cases is with
  | nil => exact heldWhileBusy_wait rest
  | cons i is => exact heldWhileBusy_command (encode i) _

/-- Commands presented one after the other, then a WAIT: each step but the WAIT's is simulated by at most as many edges
as the longest command takes. -/
theorem clocked_simulates_commands {tm : Timing} (hwf : tm.wf = true) (is : List Instr) {s s' : State}
    {rest : List HostMove} (heq : eraseHidden s' = eraseHidden s) (hbusy : s.busy = none)
    (hmoves : s.moves = is.map present ++ .wait :: rest) :
    ∃ (n : Nat) (t t' : State), n ≤ is.length * longestCommand tm ∧ core.run is.length s = .next t ∧
      (clocked tm).run n s' = .next t' ∧ eraseHidden t' = eraseHidden t ∧ t.busy = none ∧
      t.moves = .wait :: rest := by
  induction is generalizing s s' with
  | nil => exact ⟨0, s, s', Nat.zero_le _, rfl, rfl, heq, hbusy, hmoves⟩
  | cons i is ih =>
    obtain ⟨j, u, u', hj, hstep, hrun, hu, hubusy, humoves⟩ :=
      clocked_simulates_command hwf heq hbusy hmoves (heldWhileBusy_presents is rest)
    obtain ⟨n, t, t', hn, hruns, hruns', ht, htbusy, htmoves⟩ := ih hu hubusy humoves
    refine ⟨j + n, t, t', ?_, ?_, (run_add hrun n).trans hruns', ht, htbusy, htmoves⟩
    · rw [List.length_cons, Nat.succ_mul]
      omega
    · rw [List.length_cons, Nat.add_comm, run_add (run_one (M := core) hstep)]
      exact hruns

/-- While the host presents no word, edges are steps. -/
theorem clocked_run_eq_core_run {tm : Timing} (ms : List HostMove) {s : State} {rest : List HostMove}
    (hbusy : s.busy = none) (hmoves : s.moves = ms ++ rest) (hms : ∀ m ∈ ms, m = .wait ∨ ∃ a, m = .read a) :
    (clocked tm).run ms.length s = core.run ms.length s := by
  induction ms generalizing s with
  | nil => rfl
  | cons m ms ih =>
    obtain ⟨hm, hms'⟩ := List.forall_mem_cons.mp hms
    obtain ⟨t, hstep, ht, htmoves⟩ : ∃ t, step s = .next t ∧ t.busy = none ∧ t.moves = ms ++ rest := by
      obtain rfl | ⟨a, rfl⟩ := hm
      · exact ⟨_, step_wait hbusy hmoves, hbusy, rfl⟩
      · exact ⟨_, step_read hbusy hmoves, hbusy, rfl⟩
    have hedge : edge tm s = .next t := by
      rw [← hstep]
      refine edge_eq_step_of_idle hbusy fun c rest' i hc => ?_
      obtain rfl | ⟨a, rfl⟩ := hm <;> simp [hmoves] at hc
    rw [List.length_cons, Nat.add_comm, run_add (run_one (M := clocked tm) hedge),
      run_add (run_one (M := core) hstep)]
    exact ih ht htmoves hms'

/-! ### Whole messages: straight after reset, and in the clocked machine (R194, R234, R242) -/

/-- The commands of a hash (R76). -/
def hashInstrs (m : List Byte) : List Instr := .init :: m.map .absorb ++ [.final]

@[simp] theorem hashInstrs_length (m : List Byte) : (hashInstrs m).length = m.length + 2 := by simp [hashInstrs]

theorem hashMoves_eq_presents (m : List Byte) : hashMoves m = (hashInstrs m).map present ++ [.wait] := by
  simp [hashMoves, hashInstrs, absorbMoves, List.map_map, Function.comp_def]

theorem absorbed_reset : Absorbed State.reset [] :=
  ⟨rfl, rfl, rfl, represents_of_registers_eq (s := resetEdge State.reset) rfl (represents_resetEdge _)⟩

/-- Settles O54: reset holds the empty message, to which the ABSORBs append `m`; FINAL leaves its digest. -/
theorem hashStraightAfterReset : Obligations.HashStraightAfterReset := by
  intro m rest hlen
  obtain ⟨u, hrun, hu, humoves, -⟩ :=
    run_absorbMoves m (absorbed_setMoves absorbed_reset (absorbMoves m ++ present .final :: rest)) hlen rfl
  have hfinal := (step_present hu.idle humoves).trans (exec_final_of_absorbing hu.noErr hu.absorbing)
  refine ⟨finishMessage (setMoves rest u), (run_add hrun 1).trans (run_one (M := core) hfinal), ?digest, rfl, hu.noErr,
    rfl⟩
  case digest => exact finishMessage_digest_eq_sha256 (represents_setMoves hu.represents rest) hu.absorbing

/-- Settles O60: the commands of the hash are simulated within their cycles, the WAIT and the reads are steps, and the
transaction machine's run ends in the digest read (O53). -/
theorem clockedHashTerminates : Obligations.ClockedHashTerminates := by
  intro tm s m rest hwf hbusy herr hlen hmoves
  obtain ⟨hbytes, -⟩ := hashBytesGivesSha256
  obtain ⟨t, hcore, hdigest, hdone, herr', -, -, hidle, hrest, hread⟩ := hbytes s m rest hbusy herr hlen hmoves
  have hsplit : s.moves = (hashInstrs m).map present ++ .wait :: (readDigest ++ rest) := by
    simp [hmoves, expandPseudo, hashMoves_eq_presents]
  obtain ⟨n, u, u', hn, hrun, hrun', hu, hubusy, humoves⟩ :=
    clocked_simulates_commands hwf (hashInstrs m) rfl hbusy hsplit
  have hquiet : core.run 33 u = .next t := by
    rw [← run_add hrun, hashInstrs_length]
    exact hcore
  obtain ⟨t', ht', hsame⟩ := (hiddenBlind_run 33).next hu hquiet
  obtain ⟨-, hubusy', humoves', -⟩ := eraseHidden_eq_iff.mp hu
  have hedges : (clocked tm).run 33 u' = core.run 33 u' :=
    clocked_run_eq_core_run (.wait :: readDigest) (hubusy'.trans hubusy) (humoves'.trans humoves)
      (by simp [readDigest, readMoves])
  obtain ⟨hregs, hbusy', hmoves', hreadings⟩ := eraseHidden_eq_iff.mp hsame
  refine ⟨n + 33, t', ?cycles, (run_add hrun' 33).trans (hedges.trans ht'), hbusy'.trans hidle,
    (congrArg Registers.done hregs).trans hdone, (congrArg Registers.err hregs).trans herr',
    (congrArg Registers.digest hregs).trans hdigest, hmoves'.trans hrest, hreadings.trans hread⟩
  case cycles =>
    have hone := one_le_longestCommand hwf
    rw [hashInstrs_length] at hn
    rw [Nat.succ_mul]
    omega

/-! ### Reset and an idle host (R230 to R233, R235, R239) -/

theorem step_nil {s : State} (hbusy : s.busy = none) (hmoves : s.moves = []) : step s = .next s := by
  simp [step, transaction, passEdge, hbusy, hmoves]

theorem step_idle {s : State} {rest : List HostMove} (hbusy : s.busy = none) (hmoves : s.moves = .idle :: rest) :
    step s = .next (setMoves rest s) := by
  simp [step, transaction, passEdge, hbusy, hmoves]

/-- Settles O10: by the host's next move, if it has one. -/
theorem nothingPresentedChangesNothing : Obligations.NothingPresentedChangesNothing := by
  refine ⟨fun s hbusy hquiet => ?quiet, fun s a rest hbusy hmoves => step_read hbusy hmoves⟩
  case quiet =>
    cases hmoves : s.moves with
    | nil =>
      have hsame : setMoves [] s = s := by rw [← hmoves]; rfl
      rw [step_nil hbusy hmoves, List.tail_nil, hsame]
    | cons m rest =>
      obtain rfl | rfl := hquiet m (by simp [hmoves])
      · exact step_idle hbusy hmoves
      · exact step_wait hbusy hmoves

/-- At reset every address outside HEX reads 0x00 (R231). -/
theorem rdRead_reset {a : Byte} (ha : ¬(0x40 ≤ a ∧ a ≤ 0x7F)) : rdRead a State.reset = 0x00 := by
  rw [rdRead_of_idle rfl, rdIdle]
  split_ifs with h0 h1 h2 hl hd hx
  · rfl
  · rfl
  · rfl
  · simp [lenByte, State.reset]
  · simp [State.reset]
  · exact absurd hx ha
  · rfl

/-- Settles O30: the fields of the reset state, and its read port by range; each digit of HEX shows a zero nibble. -/
theorem resetStateIsAsListed : Obligations.ResetStateIsAsListed := by
  have hdigest : ∀ i (hi : i < 32), State.reset.digest[i] = 0x00 := fun _ hi => Vector.getElem_replicate hi
  refine ⟨rfl, rfl, rfl, rfl, rfl, rfl, fun _ hp => Vector.getElem_replicate hp, rfl, hdigest, fun p hp => ?hex,
    fun _ => rdRead_reset, rfl, rfl, rfl⟩
  case hex =>
    obtain ⟨i, rfl | rfl⟩ := Nat.even_or_odd' p
    · rw [hexView_getElem_even _ (show i < 32 by omega), hdigest]
      rfl
    · rw [hexView_getElem_odd _ (show i < 32 by omega), hdigest]
      rfl

/-- Settles O31: a reset is the same edge in both machines, whatever is in flight. -/
theorem resetEdgeTakesTheResetState : Obligations.ResetEdgeTakesTheResetState := by
  intro tm s rest hmoves
  have hready : cmdReady s = false := by simp [cmdReady, rstPin, hmoves]
  exact ⟨hready, _, step_reset hmoves, edge_reset hmoves, resetEdge_registers _, rfl, rfl⟩

/-- Settles O32: INIT writes LEN, FILL, DONE and H at their values at reset, and the other registers are put there. -/
theorem resetIsTheStateOfInit : Obligations.ResetIsTheStateOfInit := by
  refine ⟨exec_init_of_noErr rfl, fun s t herr hexec => ?_⟩
  obtain rfl := next_inj.mp ((exec_init_of_noErr herr).symm.trans hexec)
  rfl

/-- Settles O37: the three flags of STATUS are DONE alone. -/
theorem resultValidIsStatusTwo : Obligations.ResultValidIsStatusTwo := by
  intro s
  rw [rdRead_status, statusByte_eq, State.resultValid]
  cases s.err <;> cases s.done <;> cases s.isBusy <;> decide

/-- Settles O48: the registers at reset are those a reset edge leaves, and no command is in flight. -/
theorem resetMeetsTheInvariants : Obligations.ResetMeetsTheInvariants :=
  ⟨inv_of_registers_eq (s := resetEdge State.reset) rfl (inv_resetEdge _), flightInv_of_idle rfl,
    absorbed_reset.represents⟩

end Sys2Proof.Machine
